-- ==== Sys2Proof/Word.lean ====
section
/-! DEFINITION. The plain value types of the block (00_scope.md R7, R10): every value is unsigned and has a stated width. -/

namespace Sys2Proof

/-- A memory cell, a general register, a timer (R7: REG_WIDTH, MEM_CELL, TIMER_WIDTH). -/
abbrev Byte := BitVec 8

/-- PC, I, a stack entry, an instruction word (R7: PC_WIDTH, I_WIDTH; R70). -/
abbrev Word := BitVec 16

/-- The 12-bit address field `nnn` of an instruction (R72). -/
abbrev Addr12 := BitVec 12

/-- A 4-bit field of an instruction (R72). -/
abbrev Nibble := BitVec 4

/-- The index of a general register, 0 to 15 (R7: NREGS). -/
abbrev Reg := Fin 16

/-- A key of the keypad, 0 to 15 (R7: NKEYS). -/
abbrev Key := Fin 16

end Sys2Proof
end

