-- ==== Sys2Proof/Syntax.lean ====
section
/-! DEFINITION. The closed set of 35 instruction variants (30_encoding.md R83), one constructor per row of spec/opcode_table.json,
under the spec's normative variant names (00_scope.md R18; `ret` is the variant `return`, a word Lean keeps for itself).
Nibbles the decoder ignores (R84) are no operands. -/

namespace Sys2Proof

inductive Instr where
  /-- 0NNN, `SYS nnn` -/
  | systemCallStub (nnn : Addr12)
  /-- 0_E0, `CLS` -/
  | clearDisplay
  /-- 0_EE, `RET` -/
  | ret
  /-- 1NNN, `JP nnn` -/
  | goto (nnn : Addr12)
  /-- 2NNN, `CALL nnn` -/
  | call (nnn : Addr12)
  /-- 3XNN, `SE Vx, nn` -/
  | skipIfEqual (x : Reg) (nn : Byte)
  /-- 4XNN, `SNE Vx, nn` -/
  | skipIfNotEqual (x : Reg) (nn : Byte)
  /-- 5XY_, `SE Vx, Vy` -/
  | skipIfRegistersEqual (x y : Reg)
  /-- 6XNN, `LD Vx, nn` -/
  | setRegister (x : Reg) (nn : Byte)
  /-- 7XNN, `ADD Vx, nn` -/
  | addImmediate (x : Reg) (nn : Byte)
  /-- 8XY0, `LD Vx, Vy` -/
  | assignRegister (x y : Reg)
  /-- 8XY1, `OR Vx, Vy` -/
  | or (x y : Reg)
  /-- 8XY2, `AND Vx, Vy` -/
  | and (x y : Reg)
  /-- 8XY3, `XOR Vx, Vy` -/
  | xor (x y : Reg)
  /-- 8XY4, `ADD Vx, Vy` -/
  | addRegisters (x y : Reg)
  /-- 8XY5, `SUB Vx, Vy` -/
  | subtractRegisters (x y : Reg)
  /-- 8X_6, `SHR Vx` -/
  | shiftRight (x : Reg)
  /-- 8XY7, `SUBN Vx, Vy` -/
  | reverseSubtract (x y : Reg)
  /-- 8X_E, `SHL Vx` -/
  | shiftLeft (x : Reg)
  /-- 9XY_, `SNE Vx, Vy` -/
  | skipIfRegistersNotEqual (x y : Reg)
  /-- ANNN, `LD I, nnn` -/
  | setIndex (nnn : Addr12)
  /-- BNNN, `JP V0, nnn` -/
  | jumpWithOffset (nnn : Addr12)
  /-- CXNN, `RND Vx, nn` -/
  | andRandom (x : Reg) (nn : Byte)
  /-- DXYN, `DRW Vx, Vy, n` -/
  | drawSprite (x y : Reg) (n : Nibble)
  /-- EX9E, `SKP Vx` -/
  | skipIfKeyPressed (x : Reg)
  /-- EXA1, `SKNP Vx` -/
  | skipIfKeyNotPressed (x : Reg)
  /-- FX07, `LD Vx, DT` -/
  | getDelayTimer (x : Reg)
  /-- FX0A, `LD Vx, K` -/
  | getKey (x : Reg)
  /-- FX15, `LD DT, Vx` -/
  | setDelayTimer (x : Reg)
  /-- FX18, `LD ST, Vx` -/
  | setSoundTimer (x : Reg)
  /-- FX1E, `ADD I, Vx` -/
  | addToIndex (x : Reg)
  /-- FX29, `LD F, Vx` -/
  | setIndexToFontGlyph (x : Reg)
  /-- FX33, `LD B, Vx` -/
  | storeBcd (x : Reg)
  /-- FX55, `LD [I], Vx` -/
  | dumpRegisters (x : Reg)
  /-- FX65, `LD Vx, [I]` -/
  | loadRegisters (x : Reg)
  deriving DecidableEq, Repr

end Sys2Proof
end

