-- ==== Sys2Proof/WellFormed.lean ====
section
/-! DEFINITION. Which terms of `Instr` an instruction word can stand for. The fields' types already hold their widths; what is
left is that group 0's escape never carries the low byte of clear-display or return (30_encoding.md R78). -/

namespace Sys2Proof

/-- The low byte of a group-0 word that is neither clear-display's nor return's (R78). -/
def isStubLowByte (nn : Byte) : Bool := nn != 0xE0 && nn != 0xEE

/-- The instruction is one the decoder can produce (R76, R78). -/
def Instr.wf : Instr → Bool
  | .systemCallStub nnn => isStubLowByte (nnn.extractLsb' 0 8)
  | .clearDisplay => true
  | .ret => true
  | .goto _ => true
  | .call _ => true
  | .skipIfEqual _ _ => true
  | .skipIfNotEqual _ _ => true
  | .skipIfRegistersEqual _ _ => true
  | .setRegister _ _ => true
  | .addImmediate _ _ => true
  | .assignRegister _ _ => true
  | .or _ _ => true
  | .and _ _ => true
  | .xor _ _ => true
  | .addRegisters _ _ => true
  | .subtractRegisters _ _ => true
  | .shiftRight _ => true
  | .reverseSubtract _ _ => true
  | .shiftLeft _ => true
  | .skipIfRegistersNotEqual _ _ => true
  | .setIndex _ => true
  | .jumpWithOffset _ => true
  | .andRandom _ _ => true
  | .drawSprite _ _ _ => true
  | .skipIfKeyPressed _ => true
  | .skipIfKeyNotPressed _ => true
  | .getDelayTimer _ => true
  | .getKey _ => true
  | .setDelayTimer _ => true
  | .setSoundTimer _ => true
  | .addToIndex _ => true
  | .setIndexToFontGlyph _ => true
  | .storeBcd _ => true
  | .dumpRegisters _ => true
  | .loadRegisters _ => true

end Sys2Proof
end

