-- ==== Sys2Proof/Decode.lean ====
section
/-! DEFINITION. The decoder, a pure total function of the instruction word (30_encoding.md R76 to R82, R87), then the encoder
from the same table (R83, R88), the bits each variant ignores (R84), and the host's `decodeTableWord`. -/

namespace Sys2Proof

/-- Why a word or a list of bytes is no instruction. -/
inductive DecodeError where
  /-- R85: an illegal word of group 0x8, 0xE or 0xF, carried raw. -/
  | unknownOpcode (w : Word)
  /-- Fewer than the two bytes an instruction has (R70); the byte decoder only, fetch always has two. -/
  | truncated
  deriving DecidableEq, Repr

/-- R72: the leading nibble, the group. -/
def opField (w : Word) : Nibble := w.extractLsb' 12 4
/-- R72: register index x, the second nibble. -/
def xField (w : Word) : Reg := (w.extractLsb' 8 4).toFin
/-- R72: register index y, the third nibble. -/
def yField (w : Word) : Reg := (w.extractLsb' 4 4).toFin
/-- R72: the trailing nibble. -/
def nField (w : Word) : Nibble := w.extractLsb' 0 4
/-- R72: the immediate byte, the low byte. -/
def nnField (w : Word) : Byte := w.extractLsb' 0 8
/-- R72: the 12-bit address, the low 12 bits. -/
def nnnField (w : Word) : Addr12 := w.extractLsb' 0 12

/-- R78: group 0x0 dispatches on the low byte alone and has no unrecognized case. -/
def decodeGroup0 (w : Word) : Except DecodeError Instr :=
  if nnField w = 0xE0 then .ok .clearDisplay
  else if nnField w = 0xEE then .ok .ret
  else .ok (.systemCallStub (nnnField w))

/-- R80: group 0x8 dispatches on the trailing nibble. -/
def decodeGroup8 (w : Word) : Except DecodeError Instr :=
  let n := nField w
  let x := xField w
  let y := yField w
  if n = 0x0 then .ok (.assignRegister x y)
  else if n = 0x1 then .ok (.or x y)
  else if n = 0x2 then .ok (.and x y)
  else if n = 0x3 then .ok (.xor x y)
  else if n = 0x4 then .ok (.addRegisters x y)
  else if n = 0x5 then .ok (.subtractRegisters x y)
  else if n = 0x6 then .ok (.shiftRight x)
  else if n = 0x7 then .ok (.reverseSubtract x y)
  else if n = 0xE then .ok (.shiftLeft x)
  else .error (.unknownOpcode w)

/-- R81: group 0xE dispatches on the low byte. -/
def decodeGroupE (w : Word) : Except DecodeError Instr :=
  if nnField w = 0x9E then .ok (.skipIfKeyPressed (xField w))
  else if nnField w = 0xA1 then .ok (.skipIfKeyNotPressed (xField w))
  else .error (.unknownOpcode w)

/-- R82: group 0xF dispatches on the low byte. -/
def decodeGroupF (w : Word) : Except DecodeError Instr :=
  let nn := nnField w
  let x := xField w
  if nn = 0x07 then .ok (.getDelayTimer x)
  else if nn = 0x0A then .ok (.getKey x)
  else if nn = 0x15 then .ok (.setDelayTimer x)
  else if nn = 0x18 then .ok (.setSoundTimer x)
  else if nn = 0x1E then .ok (.addToIndex x)
  else if nn = 0x29 then .ok (.setIndexToFontGlyph x)
  else if nn = 0x33 then .ok (.storeBcd x)
  else if nn = 0x55 then .ok (.dumpRegisters x)
  else if nn = 0x65 then .ok (.loadRegisters x)
  else .error (.unknownOpcode w)

/-- R76, R77, R79, R83: the decoder. The last branch is group 0xF, the one value of the 4-bit group that is left. -/
def decodeWord (w : Word) : Except DecodeError Instr :=
  let op := opField w
  if op = 0x0 then decodeGroup0 w
  else if op = 0x1 then .ok (.goto (nnnField w))
  else if op = 0x2 then .ok (.call (nnnField w))
  else if op = 0x3 then .ok (.skipIfEqual (xField w) (nnField w))
  else if op = 0x4 then .ok (.skipIfNotEqual (xField w) (nnField w))
  else if op = 0x5 then .ok (.skipIfRegistersEqual (xField w) (yField w))
  else if op = 0x6 then .ok (.setRegister (xField w) (nnField w))
  else if op = 0x7 then .ok (.addImmediate (xField w) (nnField w))
  else if op = 0x8 then decodeGroup8 w
  else if op = 0x9 then .ok (.skipIfRegistersNotEqual (xField w) (yField w))
  else if op = 0xA then .ok (.setIndex (nnnField w))
  else if op = 0xB then .ok (.jumpWithOffset (nnnField w))
  else if op = 0xC then .ok (.andRandom (xField w) (nnField w))
  else if op = 0xD then .ok (.drawSprite (xField w) (yField w) (nField w))
  else if op = 0xE then decodeGroupE w
  else decodeGroupF w

/-- R71, R55: the word of two bytes, the byte at the lower address first: `M[a0] * 256 + M[a1]`. -/
def wordOfBytes (hi lo : Byte) : Word := (hi ++ lo).cast rfl

/-- The first instruction of a list of bytes in address order, and the bytes after it (R70, R71). -/
def decode : List Byte → Except DecodeError (Instr × List Byte)
  | hi :: lo :: rest =>
    match decodeWord (wordOfBytes hi lo) with
    | .ok i => .ok (i, rest)
    | .error e => .error e
  | [_] => .error .truncated
  | [] => .error .truncated

/-- The four-bit field that names register x (R72, R74). -/
def regBits (x : Reg) : Nibble := BitVec.ofFin x

/-- Formats F-NNN and F-SYS (R73): `oooo NNNNNNNNNNNN`. -/
def wordNNN (op : Nibble) (nnn : Addr12) : Word := (op ++ nnn).cast rfl

/-- Formats F-XNN and F-X (R73): `oooo XXXX NNNNNNNN`. -/
def wordXNN (op : Nibble) (x : Reg) (nn : Byte) : Word := (op ++ regBits x ++ nn).cast rfl

/-- Formats F-XY and F-XYN (R73): `oooo XXXX YYYY NNNN`. -/
def wordXYN (op : Nibble) (x y : Reg) (n : Nibble) : Word := (op ++ regBits x ++ regBits y ++ n).cast rfl

/-- The word of an instruction, from R83's patterns; "an ignored nibble is assembled as 0" (R88). -/
def encode : Instr → Word
  | .systemCallStub nnn => wordNNN 0x0 nnn
  | .clearDisplay => 0x00E0
  | .ret => 0x00EE
  | .goto nnn => wordNNN 0x1 nnn
  | .call nnn => wordNNN 0x2 nnn
  | .skipIfEqual x nn => wordXNN 0x3 x nn
  | .skipIfNotEqual x nn => wordXNN 0x4 x nn
  | .skipIfRegistersEqual x y => wordXYN 0x5 x y 0x0
  | .setRegister x nn => wordXNN 0x6 x nn
  | .addImmediate x nn => wordXNN 0x7 x nn
  | .assignRegister x y => wordXYN 0x8 x y 0x0
  | .or x y => wordXYN 0x8 x y 0x1
  | .and x y => wordXYN 0x8 x y 0x2
  | .xor x y => wordXYN 0x8 x y 0x3
  | .addRegisters x y => wordXYN 0x8 x y 0x4
  | .subtractRegisters x y => wordXYN 0x8 x y 0x5
  | .shiftRight x => wordXYN 0x8 x 0 0x6
  | .reverseSubtract x y => wordXYN 0x8 x y 0x7
  | .shiftLeft x => wordXYN 0x8 x 0 0xE
  | .skipIfRegistersNotEqual x y => wordXYN 0x9 x y 0x0
  | .setIndex nnn => wordNNN 0xA nnn
  | .jumpWithOffset nnn => wordNNN 0xB nnn
  | .andRandom x nn => wordXNN 0xC x nn
  | .drawSprite x y n => wordXYN 0xD x y n
  | .skipIfKeyPressed x => wordXNN 0xE x 0x9E
  | .skipIfKeyNotPressed x => wordXNN 0xE x 0xA1
  | .getDelayTimer x => wordXNN 0xF x 0x07
  | .getKey x => wordXNN 0xF x 0x0A
  | .setDelayTimer x => wordXNN 0xF x 0x15
  | .setSoundTimer x => wordXNN 0xF x 0x18
  | .addToIndex x => wordXNN 0xF x 0x1E
  | .setIndexToFontGlyph x => wordXNN 0xF x 0x29
  | .storeBcd x => wordXNN 0xF x 0x33
  | .dumpRegisters x => wordXNN 0xF x 0x55
  | .loadRegisters x => wordXNN 0xF x 0x65

/-- A word's two bytes in address order (R71). -/
def bytesOfWord (w : Word) : List Byte := [w.extractLsb' 8 8, w.extractLsb' 0 8]

/-- The bytes of an instruction in address order (R70, R71). -/
def encodeBytes (i : Instr) : List Byte := bytesOfWord (encode i)

/-- The bits of the word the decoder looks at: all but those R84 lists as ignored. -/
def Instr.decodedBits : Instr → Word
  | .systemCallStub _ => 0xFFFF
  | .clearDisplay => 0xF0FF
  | .ret => 0xF0FF
  | .goto _ => 0xFFFF
  | .call _ => 0xFFFF
  | .skipIfEqual _ _ => 0xFFFF
  | .skipIfNotEqual _ _ => 0xFFFF
  | .skipIfRegistersEqual _ _ => 0xFFF0
  | .setRegister _ _ => 0xFFFF
  | .addImmediate _ _ => 0xFFFF
  | .assignRegister _ _ => 0xFFFF
  | .or _ _ => 0xFFFF
  | .and _ _ => 0xFFFF
  | .xor _ _ => 0xFFFF
  | .addRegisters _ _ => 0xFFFF
  | .subtractRegisters _ _ => 0xFFFF
  | .shiftRight _ => 0xFF0F
  | .reverseSubtract _ _ => 0xFFFF
  | .shiftLeft _ => 0xFF0F
  | .skipIfRegistersNotEqual _ _ => 0xFFF0
  | .setIndex _ => 0xFFFF
  | .jumpWithOffset _ => 0xFFFF
  | .andRandom _ _ => 0xFFFF
  | .drawSprite _ _ _ => 0xFFFF
  | .skipIfKeyPressed _ => 0xFFFF
  | .skipIfKeyNotPressed _ => 0xFFFF
  | .getDelayTimer _ => 0xFFFF
  | .getKey _ => 0xFFFF
  | .setDelayTimer _ => 0xFFFF
  | .setSoundTimer _ => 0xFFFF
  | .addToIndex _ => 0xFFFF
  | .setIndexToFontGlyph _ => 0xFFFF
  | .storeBcd _ => 0xFFFF
  | .dumpRegisters _ => 0xFFFF
  | .loadRegisters _ => 0xFFFF

/-- A row of the opcode table as one 16-bit word: the bits at and above `nbits` are 0. -/
def tableWord (nbits w : Nat) : Word := BitVec.ofNat 16 (w % 2 ^ nbits)

/-- For the host: the instruction the decoder reads from the table's word w, laid out in memory order (R71). -/
def decodeTableWord (nbits w : Nat) : Option Instr :=
  match decode (bytesOfWord (tableWord nbits w)) with
  | .ok (i, _) => some i
  | .error _ => none

end Sys2Proof
end

