-- ==== Sys2Proof/Config.lean ====
section
/-! DEFINITION. What is fixed for the life of an instance (00_scope.md R7, 10_state.md R44), and the free values: the answers of
the collaborators, which the spec leaves unconstrained (92_eei_decisions.md D12, D20). -/

namespace Sys2Proof

/-- ADDR_POLICY: what becomes of an address above 0xFFF (20_memory.md R57, D2). -/
inductive AddrPolicy where
  | fault
  | mask
  deriving DecidableEq, Repr

/-- EMPTY_RET: what a return does on an empty stack (41_control.md R121, D3). -/
inductive EmptyRet where
  | noop
  | fault
  deriving DecidableEq, Repr

/-- FONT: 16 glyphs of 5 bytes each, top row first (20_memory.md R53). -/
abbrev Font := Vector (Vector Byte 5) 16

/-- The six parameters of R7 that "a model may make ... configuration fields". -/
structure Config where
  addrPolicy    : AddrPolicy
  emptyRet      : EmptyRet
  /-- STACK_DEPTH; `none` is `unbounded`. -/
  stackDepth    : Option Nat
  /-- SHIFT_COMMIT -/
  shiftCommit   : Bool
  /-- CYCLES_PER_TICK, at least 1 (D5). -/
  cyclesPerTick : Nat
  font          : Font
  deriving DecidableEq, Repr

/-- The default FONT, the table of R53 (D25). PRESUMED by the spec itself: "from general knowledge, not in source".
Unsafe for a claim that reads font bytes; notes/assumptions/5.md. -/
def Font.standard : Font :=
  #v[#v[0xF0, 0x90, 0x90, 0x90, 0xF0],
     #v[0x20, 0x60, 0x20, 0x20, 0x70],
     #v[0xF0, 0x10, 0xF0, 0x80, 0xF0],
     #v[0xF0, 0x10, 0xF0, 0x10, 0xF0],
     #v[0x90, 0x90, 0xF0, 0x10, 0x10],
     #v[0xF0, 0x80, 0xF0, 0x10, 0xF0],
     #v[0xF0, 0x80, 0xF0, 0x90, 0xF0],
     #v[0xF0, 0x10, 0x20, 0x40, 0x40],
     #v[0xF0, 0x90, 0xF0, 0x90, 0xF0],
     #v[0xF0, 0x90, 0xF0, 0x10, 0xF0],
     #v[0xF0, 0x90, 0xF0, 0x90, 0x90],
     #v[0xE0, 0x90, 0xE0, 0x90, 0xE0],
     #v[0xF0, 0x80, 0x80, 0x80, 0xF0],
     #v[0xE0, 0x90, 0x90, 0x90, 0xE0],
     #v[0xF0, 0x80, 0xF0, 0x80, 0xF0],
     #v[0xF0, 0x80, 0xF0, 0x80, 0x80]]

/-- The defaults R7 states. -/
def Config.standard : Config where
  addrPolicy := .fault
  emptyRet := .noop
  stackDepth := none
  shiftCommit := true
  cyclesPerTick := 16
  font := Font.standard

/-- A configuration R7 admits: "CYCLES_PER_TICK ≥ 1" (D5). The font's size is in its type. -/
def Config.wf (c : Config) : Bool := 1 ≤ c.cyclesPerTick

/-- FREE VALUE: the byte the random source answers (43_alu.md R172, D20), for the n-th request. Nothing constrains it;
safe; notes/assumptions/6.md. -/
opaque Config.freeRandomByte : Nat → Byte

/-- FREE VALUE: the answer to `Input.isKeyPressed(k)` (46_timers_keys.md R230, D12), for the n-th request and the raw 8-bit key
value k. Nothing constrains it; safe; notes/assumptions/6.md. -/
opaque Config.freeKeyPressed : Nat → Byte → Bool

/-- FREE VALUE: the answer to `Input.getPendingKey()` (46_timers_keys.md R230, D12), for the n-th request: `none` or a key 0 to 15.
Nothing else constrains it; safe; notes/assumptions/6.md. -/
opaque Config.freePendingKey : Nat → Option Key

end Sys2Proof
end

