-- ==== Sys2Proof/Machine/State.lean ====
section
/-! DEFINITION. The state of the block (10_state.md R20), of the collaborators as the block sees them (R40, R41), its
configuration (R44), and State.reset (70_reset_and_hazards.md R291). Plain data only. -/

namespace Sys2Proof.Machine

/-- What an access is for (00_scope.md R12): recorded by MemoryRange. -/
inductive AccessKind where
  | fetch
  | read
  | write
  deriving DecidableEq, Repr

/-- The block's exceptions with the information each records (60_exceptions.md R250). Each is taken as a NEXT state by
`State.raise`. -/
inductive Cause where
  /-- code 1: the raw illegal word (R251) -/
  | unknownOpcode (w : Word)
  /-- code 2: the exact out-of-range address and the kind of access (R252) -/
  | memoryRange (a : Nat) (kind : AccessKind)
  /-- code 3: STACK_DEPTH (R253) -/
  | stackOverflow (depth : Nat)
  /-- code 4: no information (R254) -/
  | emptyStackReturn
  deriving DecidableEq, Repr

/-- `fault(code, info, p)` of R250: the cause, and the address the faulting instruction was fetched from. -/
structure FaultRecord where
  cause : Cause
  addr  : Word
  deriving DecidableEq, Repr

/-- Stops of the machine outside its own exceptions: there are none. Every exception of R250 is a next state with the fault
record written (R258), and every memory address either exists or raises MemoryRange (R57); so no step ever answers
`Host.Outcome.fault`, and this closed type has no constructor. Safe; notes/assumptions/8.md. -/
inductive Fault
  deriving DecidableEq, Repr

/-- What the model answers no state for. -/
inductive Refusal where
  /-- Raised by a dispatcher's arm whose instruction has no meaning yet; no arm does so. Safe. -/
  | notModelled (mnemonic : String)
  /-- Raised by `State.construct` alone, for a ROM of more than 3584 bytes: LoadError, "no instance exists" (R255, D7). Safe. -/
  | loadError (length : Nat)
  deriving DecidableEq, Repr

/-- 10_state.md R36: derived from F and W. -/
inductive RunState where
  | running
  | waiting
  | faulted
  deriving DecidableEq, Repr

/-- The cells that differ from what construction leaves (20_memory.md R52), by address. -/
abbrev Memory := List Host.Cell

/-- R40: the "boolean grid, width 64 x height 32", as 32 rows of 64 columns; true is a set cell. -/
abbrev Framebuffer := Vector (Vector Bool 64) 32

structure State where
  /-- the parameters, fixed for the life of an instance (R44); no step changes them -/
  cfg : Config
  /-- V[0] to V[15] (R21) -/
  v : Vector Byte 16
  /-- PC (R26) -/
  pc : Word
  /-- I (R30) -/
  i : Word
  /-- DT (R31) -/
  dt : Byte
  /-- ST (R32) -/
  st : Byte
  /-- S (R33); the last element is the top (00_scope.md R11) -/
  stack : List Word
  /-- W (R35): `none`, or `some x` for waiting(x) -/
  wait : Option Reg
  /-- F (R37) -/
  fault : Option FaultRecord
  /-- M (R39) -/
  mem : Memory
  /-- the Display collaborator's framebuffer (R40) -/
  fb : Framebuffer
  /-- the slots begun in the current tick (R38); 0 between ticks -/
  slot : Nat
  /-- the model's own: the input-port and random-port requests answered so far; the free values are applied to it -/
  requests : Nat
  /-- the model's own: what the Input port will answer to the next isKeyPressed requests, oldest first -/
  keyAnswers : List Bool
  /-- the model's own: what the Input port will answer to the next getPendingKey requests, oldest first -/
  pendingAnswers : List (Option Key)
  /-- the model's own: what the random port will answer to the next byte requests, oldest first -/
  randomAnswers : List Byte
  deriving DecidableEq, Repr

/-- R291 with the default parameters and the empty ROM (R292), which is accepted. V, I, DT and ST are 0: DESIGN CHOICE of the
spec (D6), unsafe, notes/assumptions/3.md. The framebuffer is clear: DESIGN CHOICE of the spec (R40, D24), unsafe,
notes/assumptions/4.md. The model's own last four fields: DESIGN CHOICE, notes/assumptions/7.md. -/
def State.reset : State where
  cfg := Config.standard
  v := Vector.replicate 16 0
  pc := 0x200
  i := 0
  dt := 0
  st := 0
  stack := []
  wait := none
  fault := none
  mem := []
  fb := Vector.replicate 32 (Vector.replicate 64 false)
  slot := 0
  requests := 0
  keyAnswers := []
  pendingAnswers := []
  randomAnswers := []

end Sys2Proof.Machine
end

