-- ==== Sys2Proof/Machine/Ops.lean ====
section
/-! DEFINITION. The named operations over the state: registers, memory, the call stack, the ports, effective addresses, and
taking an exception. The block has no return from an exception (60_exceptions.md R259). -/

namespace Sys2Proof.Machine

/-! ### General registers (10_state.md R21 to R24) -/

/-- `V[x]`. -/
def State.reg (s : State) (x : Reg) : Byte := s.v[x.val]

/-- `V[x] <- b`. -/
def State.setReg (s : State) (x : Reg) (b : Byte) : State := { s with v := s.v.set x.val b }

/-- VF, the flag register (R24). -/
def VF : Reg := 15

/-! ### Special registers (R26, R30 to R32, R35) -/

def State.setPc (s : State) (a : Word) : State := { s with pc := a }
def State.setIndex (s : State) (a : Word) : State := { s with i := a }
def State.setDelay (s : State) (b : Byte) : State := { s with dt := b }
def State.setSound (s : State) (b : Byte) : State := { s with st := b }
def State.setWait (s : State) (w : Option Reg) : State := { s with wait := w }

/-- The fetch's advance, `PC <- (PC + 2) mod 2^16` (40_execution_cycle.md R105). DESIGN CHOICE at PC = 0xFFFF under mask alone, where
R105's list of corner cases says 0x0000 and its pseudocode gives 0x0001: the pseudocode is followed; unsafe,
notes/assumptions/21.md. -/
def State.advancePc (s : State) : State := s.setPc (s.pc + 2)

/-- The address p of the instruction being executed: execute starts with PC = p + 2 mod 2^16 (R107). DEDUCED, safe,
notes/assumptions/17.md. -/
def State.instrAddr (s : State) : Word := s.pc - 2

/-! ### Call stack (R33; 00_scope.md R11: the last element is the top) -/

/-- `push(S, a)`. -/
def State.push (s : State) (a : Word) : State := { s with stack := s.stack ++ [a] }

/-- The value `pop(S)` returns; none when S is empty. -/
def State.top (s : State) : Option Word := s.stack.getLast?

/-- S after `pop(S)`. -/
def State.dropTop (s : State) : State := { s with stack := s.stack.dropLast }

/-- `STACK_DEPTH != unbounded and len(S) = STACK_DEPTH` (41_control.md R123): the depth, when S is full. -/
def State.fullDepth (s : State) : Option Nat :=
  match s.cfg.stackDepth with
  | none => none
  | some d => if s.stack.length = d then some d else none

/-! ### Memory (20_memory.md) -/

/-- R50: 4096 cells. -/
def memSize : Nat := 4096

/-- R7: FONT_BASE. -/
def fontBase : Nat := 0x050

/-- R7, R291: ROM_BASE, also the reset value of PC. -/
def romBase : Nat := 0x200

/-- What a cell that the memory list does not name holds: what construction leaves there (R52, R53, R291 steps 1 and 2), the font at
0x050 to 0x09F and zero elsewhere. -/
def Memory.initial (font : Font) (a : Nat) : Byte :=
  if h : 0x050 ≤ a ∧ a < 0x0A0 then (font[(a - 0x050) / 5])[(a - 0x050) % 5]'(Nat.mod_lt _ (by decide)) else 0

/-- The byte listed for an address, if one is. -/
def Memory.lookup : Memory → Nat → Option Byte
  | [], _ => none
  | c :: m, a => if c.1 = a then some c.2 else Memory.lookup m a

/-- `M[a]`. -/
def Memory.read (font : Font) (m : Memory) (a : Nat) : Byte :=
  match Memory.lookup m a with
  | some b => b
  | none => Memory.initial font a

/-- Takes an address off the list. -/
def Memory.erase : Memory → Nat → Memory
  | [], _ => []
  | c :: m, a => if c.1 = a then Memory.erase m a else c :: Memory.erase m a

/-- Puts a cell in its place by address. -/
def Memory.insert (a : Nat) (b : Byte) : Memory → Memory
  | [] => [(a, b)]
  | c :: m => if a < c.1 then (a, b) :: c :: m else c :: Memory.insert a b m

/-- `M[a] <- b`, in canonical form: a cell that holds what construction left there is not listed. -/
def Memory.write (font : Font) (m : Memory) (a : Nat) (b : Byte) : Memory :=
  if b = Memory.initial font a then Memory.erase m a else Memory.insert a b (Memory.erase m a)

/-- Addresses strictly rising. -/
def Memory.sorted : Memory → Bool
  | [] => true
  | [_] => true
  | c :: d :: m => decide (c.1 < d.1) && Memory.sorted (d :: m)

/-- The canonical form: strictly rising, inside the address space (R50), and no cell that holds what it would hold unlisted. -/
def Memory.wf (font : Font) (m : Memory) : Bool :=
  Memory.sorted m && m.all (fun c => decide (c.1 < memSize) && (c.2 != Memory.initial font c.1))

def State.readByte (s : State) (a : Nat) : Byte := Memory.read s.cfg.font s.mem a
def State.writeByte (s : State) (a : Nat) (b : Byte) : State := { s with mem := Memory.write s.cfg.font s.mem a b }

/-- The bytes at a list of addresses, in order. -/
def State.readBytes (s : State) (as : List Nat) : List Byte := as.map s.readByte

/-- Writes bytes to addresses, in order (R61). -/
def State.writeBytes (s : State) : List (Nat × Byte) → State
  | [] => s
  | (a, b) :: ws => (s.writeByte a b).writeBytes ws

/-! ### Effective addresses (R57) -/

/-- `ea(a, kind)`: an exact natural address made an address 0 to 0xFFF, or MemoryRange. -/
def ea (policy : AddrPolicy) (a : Nat) (kind : AccessKind) : Except Cause Nat :=
  if a ≤ 0xFFF then .ok a
  else match policy with
    | .fault => .error (.memoryRange a kind)
    | .mask => .ok (a &&& 0xFFF)

/-- `ea` of `count` consecutive exact addresses from `a`, ascending (R56), all before any access (44_index_memory.md R196): the first
that is out of range is the one reported (60_exceptions.md R257). -/
def eaRange (policy : AddrPolicy) (a : Nat) (kind : AccessKind) : Nat → Except Cause (List Nat)
  | 0 => .ok []
  | count + 1 =>
    match ea policy a kind with
    | .error c => .error c
    | .ok a0 =>
      match eaRange policy (a + 1) kind count with
      | .error c => .error c
      | .ok as => .ok (a0 :: as)

/-! ### Taking an exception (60_exceptions.md R258) -/

/-- `raise`: the fault record is written, the current tick ends, and nothing else changes. `p` is the address the faulting
instruction was fetched from. -/
def State.raise (s : State) (c : Cause) (p : Word) : State := { s with fault := some ⟨c, p⟩, slot := 0 }

/-- `raise` while an instruction executes. -/
def State.raiseInExecute (s : State) (c : Cause) : State := s.raise c s.instrAddr

/-! ### The ports (00_scope.md R14): each answer is a value the block does not choose -/

/-- `Rand.byte()`, the answer (43_alu.md R172). -/
def State.randomAnswer (s : State) : Byte :=
  match s.randomAnswers with
  | r :: _ => r
  | [] => Config.freeRandomByte s.requests

/-- One `Rand.byte()` request made and answered. -/
def State.afterRandom (s : State) : State :=
  { s with randomAnswers := s.randomAnswers.tail, requests := s.requests + 1 }

/-- `Input.isKeyPressed(k)`, the answer, for the raw 8-bit k (46_timers_keys.md R230, R231). -/
def State.keyAnswer (s : State) (k : Byte) : Bool :=
  match s.keyAnswers with
  | b :: _ => b
  | [] => Config.freeKeyPressed s.requests k

/-- One `Input.isKeyPressed` request made and answered. -/
def State.afterKeyQuery (s : State) : State :=
  { s with keyAnswers := s.keyAnswers.tail, requests := s.requests + 1 }

/-- `Input.getPendingKey()`, the answer (R230). -/
def State.pendingAnswer (s : State) : Option Key :=
  match s.pendingAnswers with
  | r :: _ => r
  | [] => Config.freePendingKey s.requests

/-- One `Input.getPendingKey` request made and answered. -/
def State.afterPendingQuery (s : State) : State :=
  { s with pendingAnswers := s.pendingAnswers.tail, requests := s.requests + 1 }

/-! ### The display port (45_display.md R210) -/

/-- The cell (x mod 64, y mod 32). -/
def Framebuffer.get (fb : Framebuffer) (x y : Nat) : Bool :=
  (fb[y % 32]'(Nat.mod_lt _ (by decide)))[x % 64]'(Nat.mod_lt _ (by decide))

/-- The cell (x mod 64, y mod 32) made b. -/
def Framebuffer.put (fb : Framebuffer) (x y : Nat) (b : Bool) : Framebuffer :=
  fb.set (y % 32) ((fb[y % 32]'(Nat.mod_lt _ (by decide))).set (x % 64) b (Nat.mod_lt _ (by decide))) (Nat.mod_lt _ (by decide))

/-- `Display.clear()` leaves every cell unset. -/
def Framebuffer.clear : Framebuffer := Vector.replicate 32 (Vector.replicate 64 false)

/-- `Display.drawPixel(x, y)`: toggles the cell and returns what it was before. -/
def Framebuffer.drawPixel (fb : Framebuffer) (x y : Nat) : Framebuffer × Bool :=
  (fb.put x y (!fb.get x y), fb.get x y)

/-- drawPixel on a list of cells in order: the framebuffer after, and whether any call returned true. -/
def Framebuffer.drawPixels (fb : Framebuffer) : List (Nat × Nat) → Framebuffer × Bool
  | [] => (fb, false)
  | c :: cs =>
    let first := fb.drawPixel c.1 c.2
    let rest := first.1.drawPixels cs
    (rest.1, first.2 || rest.2)

def State.setDisplay (s : State) (fb : Framebuffer) : State := { s with fb := fb }

/-! ### The tick's own state (40_execution_cycle.md R102, R103; 10_state.md R38) -/

/-- R103: one less, floored at 0. -/
def countDown (t : Byte) : Byte := if 0 < t.toNat then t - 1 else t

/-- `decrement_timers()` (R103). -/
def State.decrementTimers (s : State) : State := { s with dt := countDown s.dt, st := countDown s.st }

/-- Counts a slot as begun; the tick's last slot brings the count back to 0 (R38, R102). -/
def State.countSlot (s : State) : State :=
  { s with slot := if s.slot + 1 < s.cfg.cyclesPerTick then s.slot + 1 else 0 }

/-- What a tick does before a slot's own work: the timer decrement, exactly once, before its first slot (R102, R103). -/
def State.beginSlot (s : State) : State :=
  (if s.slot = 0 then s.decrementTimers else s).countSlot

end Sys2Proof.Machine
end

