-- ==== Sys2Proof/Machine/Flags.lean ====
section
/-! DEFINITION. The values VF is given as a flag (10_state.md R24; 43_alu.md R167 to R171; 45_display.md R212), and the order of
the two writes of an instruction that writes VF as a side effect (R160). -/

namespace Sys2Proof.Machine

/-- A flag as a register value, 1 or 0. -/
def flag (b : Bool) : Byte := if b then 1 else 0

/-- R167: 1 if a + b > 255, computed exactly. -/
def carryFlag (a b : Byte) : Byte := flag (decide (255 < a.toNat + b.toNat))

/-- R168, R170: 1 if a > b, strictly. -/
def greaterFlag (a b : Byte) : Byte := flag (decide (b.toNat < a.toNat))

/-- R169: bit 0 before the shift. -/
def lowBitFlag (a : Byte) : Byte := a &&& 1

/-- R171: bit 7 before the shift. -/
def highBitFlag (a : Byte) : Byte := (a >>> 7) &&& 1

/-- R160, D8: VF first, the result second, so that with x = 15 the result stays. -/
def State.setFlagThenResult (s : State) (f : Byte) (x : Reg) (r : Byte) : State := (s.setReg VF f).setReg x r

/-- R169, R171: VF first, then the shifted value only when SHIFT_COMMIT. -/
def State.setShift (s : State) (f : Byte) (x : Reg) (r : Byte) : State :=
  if s.cfg.shiftCommit then s.setFlagThenResult f x r else s.setReg VF f

end Sys2Proof.Machine
end

