-- ==== Sys2Proof/Machine/Operands.lean ====
section
/-! DEFINITION. The operand forms (30_encoding.md R74): a register's value is `State.reg`, an immediate byte is the field itself,
and here are the others: addresses, the bytes I points at, a glyph's address, a sprite's coordinates, rows and cells. -/

namespace Sys2Proof.Machine

/-- R74: a 12-bit address, zero-extended to 16 bits. -/
def addrOperand (nnn : Addr12) : Word := nnn.setWidth 16

/-- 41_control.md R124: `zext_16(nnn) + V[0]`. -/
def State.offsetTarget (s : State) (nnn : Addr12) : Word := addrOperand nnn + (s.reg 0).setWidth 16

/-- 44_index_memory.md R192: `0x050 + 5 * (v & 0x0F)`. -/
def glyphAddr (v : Byte) : Word := 0x050 + 5 * (v &&& 0x0F).setWidth 16

/-- 44_index_memory.md R196: the addresses of the `count` bytes at I, I + 1, ..., all through `ea`. -/
def State.indexed (s : State) (count : Nat) (kind : AccessKind) : Except Cause (List Nat) :=
  eaRange s.cfg.addrPolicy s.i.toNat kind count

/-- The decimal digits of a byte, hundreds first (R193). -/
def bcdDigits (v : Byte) : List Byte :=
  [BitVec.ofNat 8 (v.toNat / 100), BitVec.ofNat 8 (v.toNat / 10 % 10), BitVec.ofNat 8 (v.toNat % 10)]

/-- The registers V[0] to V[x], ascending (R194, R195). -/
def regsUpTo (x : Reg) : List Reg := (List.finRange 16).filter (fun c => decide (c ≤ x))

/-- Loads registers in order (R195). -/
def State.loadRegs (s : State) : List (Reg × Byte) → State
  | [] => s
  | (x, b) :: ls => (s.setReg x b).loadRegs ls

/-- 45_display.md R212, D9: a sprite's coordinate, read after "VF is reset to 0". -/
def State.spriteCoord (s : State) (x : Reg) : Nat := if x = VF then 0 else (s.reg x).toNat

/-- R212: the rows not clipped vertically, `min(n, max(0, 32 - cy))`. -/
def spriteRows (n : Nibble) (cy : Nat) : Nat := min n.toNat (32 - cy)

/-- R212: the cells one row's byte asks drawPixel for: most significant bit first, the row's rest clipped at column 64, a zero bit
never. -/
def spriteRowCells (cx row : Nat) (bits : Byte) : List (Nat × Nat) :=
  (((List.range 8).takeWhile (fun b => decide (cx + b < 64))).filter (fun b => bits.getLsbD (7 - b))).map (fun b => (cx + b, row))

/-- R212: the cells of a sprite's rows, row r at framebuffer row cy + r, in the order of the drawPixel calls. -/
def spriteCells (cx : Nat) : Nat → List Byte → List (Nat × Nat)
  | _, [] => []
  | cy, bits :: rest => spriteRowCells cx cy bits ++ spriteCells cx (cy + 1) rest

end Sys2Proof.Machine
end

