-- ==== Sys2Proof/Machine/Alu.lean ====
section
/-! DEFINITION. Register arithmetic and logic (43_alu.md). Operands are read before anything is written (R160,
40_execution_cycle.md R109); byte arithmetic wraps mod 256 (R173). -/

namespace Sys2Proof.Machine

/-- R161. -/
def execSetRegister (x : Reg) (nn : Byte) (s : State) : Host.Outcome State Fault Refusal := .next (s.setReg x nn)

/-- R162: no flag. -/
def execAddImmediate (x : Reg) (nn : Byte) (s : State) : Host.Outcome State Fault Refusal := .next (s.setReg x (s.reg x + nn))

/-- R163. -/
def execAssignRegister (x y : Reg) (s : State) : Host.Outcome State Fault Refusal := .next (s.setReg x (s.reg y))

/-- R164: no flag. -/
def execOr (x y : Reg) (s : State) : Host.Outcome State Fault Refusal := .next (s.setReg x (s.reg x ||| s.reg y))

/-- R165: no flag. -/
def execAnd (x y : Reg) (s : State) : Host.Outcome State Fault Refusal := .next (s.setReg x (s.reg x &&& s.reg y))

/-- R166: no flag. -/
def execXor (x y : Reg) (s : State) : Host.Outcome State Fault Refusal := .next (s.setReg x (s.reg x ^^^ s.reg y))

/-- R167. -/
def execAddRegisters (x y : Reg) (s : State) : Host.Outcome State Fault Refusal :=
  .next (s.setFlagThenResult (carryFlag (s.reg x) (s.reg y)) x (s.reg x + s.reg y))

/-- R168. -/
def execSubtractRegisters (x y : Reg) (s : State) : Host.Outcome State Fault Refusal :=
  .next (s.setFlagThenResult (greaterFlag (s.reg x) (s.reg y)) x (s.reg x - s.reg y))

/-- R169: Vy is never read. -/
def execShiftRight (x : Reg) (s : State) : Host.Outcome State Fault Refusal :=
  .next (s.setShift (lowBitFlag (s.reg x)) x (s.reg x >>> 1))

/-- R170. -/
def execReverseSubtract (x y : Reg) (s : State) : Host.Outcome State Fault Refusal :=
  .next (s.setFlagThenResult (greaterFlag (s.reg y) (s.reg x)) x (s.reg y - s.reg x))

/-- R171: Vy is never read. -/
def execShiftLeft (x : Reg) (s : State) : Host.Outcome State Fault Refusal :=
  .next (s.setShift (highBitFlag (s.reg x)) x (s.reg x <<< 1))

/-- R172: one request on the random port, even when nn = 0. -/
def execAndRandom (x : Reg) (nn : Byte) (s : State) : Host.Outcome State Fault Refusal :=
  .next (s.afterRandom.setReg x (s.randomAnswer &&& nn))

end Sys2Proof.Machine
end

