-- ==== Sys2Proof/Machine/Control.lean ====
section
/-! DEFINITION. Control transfer and the system-call stub (41_control.md). On entry PC = p + 2 (40_execution_cycle.md R107). -/

namespace Sys2Proof.Machine

/-- R120: no operation; nnn is not used. -/
def execSystemCallStub (_nnn : Addr12) (s : State) : Host.Outcome State Fault Refusal := .next s

/-- R121. -/
def execRet (s : State) : Host.Outcome State Fault Refusal :=
  match s.top with
  | some a => .next (s.dropTop.setPc a)
  | none =>
    match s.cfg.emptyRet with
    | .noop => .next s
    | .fault => .next (s.raiseInExecute .emptyStackReturn)

/-- R122. -/
def execGoto (nnn : Addr12) (s : State) : Host.Outcome State Fault Refusal := .next (s.setPc (addrOperand nnn))

/-- R123: the check comes before anything is pushed. -/
def execCall (nnn : Addr12) (s : State) : Host.Outcome State Fault Refusal :=
  match s.fullDepth with
  | some d => .next (s.raiseInExecute (.stackOverflow d))
  | none => .next ((s.push s.pc).setPc (addrOperand nnn))

/-- R124. -/
def execJumpWithOffset (nnn : Addr12) (s : State) : Host.Outcome State Fault Refusal := .next (s.setPc (s.offsetTarget nnn))

end Sys2Proof.Machine
end

