-- ==== Sys2Proof/Machine/Display.lean ====
section
/-! DEFINITION. The instructions that act on the framebuffer (45_display.md). -/

namespace Sys2Proof.Machine

/-- R211: `Display.clear()`. -/
def execClearDisplay (s : State) : Host.Outcome State Fault Refusal := .next (s.setDisplay Framebuffer.clear)

/-- The drawing of R212 once the rows' bytes are in hand: VF is reset, drawPixel is called on the cells, VF records a flip. -/
def State.drawCells (s : State) (cells : List (Nat × Nat)) : State :=
  let drawn := s.fb.drawPixels cells
  ((s.setReg VF 0).setDisplay drawn.1).setReg VF (flag drawn.2)

/-- R212: the coordinates as they stand after "VF is reset to 0" (D9), the unclipped rows' addresses checked before anything
changes (D10, D14). -/
def execDrawSprite (x y : Reg) (n : Nibble) (s : State) : Host.Outcome State Fault Refusal :=
  match s.indexed (spriteRows n (s.spriteCoord y)) .read with
  | .error c => .next (s.raiseInExecute c)
  | .ok as => .next (s.drawCells (spriteCells (s.spriteCoord x) (s.spriteCoord y) (s.readBytes as)))

end Sys2Proof.Machine
end

