-- ==== Sys2Proof/Machine/IndexMemory.lean ====
section
/-! DEFINITION. The index register and the memory transfers (44_index_memory.md). None of them moves I as a side effect, and a
transfer checks all its addresses before it writes anything (R196). -/

namespace Sys2Proof.Machine

/-- R190. -/
def execSetIndex (nnn : Addr12) (s : State) : Host.Outcome State Fault Refusal := .next (s.setIndex (addrOperand nnn))

/-- R191: mod 2^16, no flag. -/
def execAddToIndex (x : Reg) (s : State) : Host.Outcome State Fault Refusal := .next (s.setIndex (s.i + (s.reg x).setWidth 16))

/-- R192. -/
def execSetIndexToFontGlyph (x : Reg) (s : State) : Host.Outcome State Fault Refusal := .next (s.setIndex (glyphAddr (s.reg x)))

/-- R193. -/
def execStoreBcd (x : Reg) (s : State) : Host.Outcome State Fault Refusal :=
  match s.indexed 3 .write with
  | .error c => .next (s.raiseInExecute c)
  | .ok as => .next (s.writeBytes (as.zip (bcdDigits (s.reg x))))

/-- R194. -/
def execDumpRegisters (x : Reg) (s : State) : Host.Outcome State Fault Refusal :=
  match s.indexed (x.val + 1) .write with
  | .error c => .next (s.raiseInExecute c)
  | .ok as => .next (s.writeBytes (as.zip ((regsUpTo x).map s.reg)))

/-- R195. -/
def execLoadRegisters (x : Reg) (s : State) : Host.Outcome State Fault Refusal :=
  match s.indexed (x.val + 1) .read with
  | .error c => .next (s.raiseInExecute c)
  | .ok as => .next (s.loadRegs ((regsUpTo x).zip (s.readBytes as)))

end Sys2Proof.Machine
end

