-- ==== Sys2Proof/Machine/Skips.lean ====
section
/-! DEFINITION. The conditional skips on register values (42_skips.md), and the skip itself, which the key skips of
46_timers_keys.md share. -/

namespace Sys2Proof.Machine

/-- R140: `PC <- (PC + 2) mod 2^16` when the condition holds, nothing otherwise; the skipped word is not looked at. -/
def State.skipIf (s : State) (cond : Bool) : State := if cond then s.setPc (s.pc + 2) else s

/-- R141. -/
def execSkipIfEqual (x : Reg) (nn : Byte) (s : State) : Host.Outcome State Fault Refusal := .next (s.skipIf (s.reg x == nn))

/-- R142. -/
def execSkipIfNotEqual (x : Reg) (nn : Byte) (s : State) : Host.Outcome State Fault Refusal := .next (s.skipIf (s.reg x != nn))

/-- R143. -/
def execSkipIfRegistersEqual (x y : Reg) (s : State) : Host.Outcome State Fault Refusal := .next (s.skipIf (s.reg x == s.reg y))

/-- R144. -/
def execSkipIfRegistersNotEqual (x y : Reg) (s : State) : Host.Outcome State Fault Refusal := .next (s.skipIf (s.reg x != s.reg y))

end Sys2Proof.Machine
end

