-- ==== Sys2Proof/Machine/TimersKeys.lean ====
section
/-! DEFINITION. The timer and keypad instructions (46_timers_keys.md), and the key poll that ends a wait (40_execution_cycle.md
R108). -/

namespace Sys2Proof.Machine

/-- R231: the request carries the raw value of V[x]. -/
def execSkipIfKeyPressed (x : Reg) (s : State) : Host.Outcome State Fault Refusal :=
  .next (s.afterKeyQuery.skipIf (s.keyAnswer (s.reg x)))

/-- R232. -/
def execSkipIfKeyNotPressed (x : Reg) (s : State) : Host.Outcome State Fault Refusal :=
  .next (s.afterKeyQuery.skipIf (!s.keyAnswer (s.reg x)))

/-- R233. -/
def execGetDelayTimer (x : Reg) (s : State) : Host.Outcome State Fault Refusal := .next (s.setReg x s.dt)

/-- R234: the block starts to wait; it does not poll in this slot (D11). -/
def execGetKey (x : Reg) (s : State) : Host.Outcome State Fault Refusal := .next (s.setWait (some x))

/-- R235. -/
def execSetDelayTimer (x : Reg) (s : State) : Host.Outcome State Fault Refusal := .next (s.setDelay (s.reg x))

/-- R236. -/
def execSetSoundTimer (x : Reg) (s : State) : Host.Outcome State Fault Refusal := .next (s.setSound (s.reg x))

/-- R108: `poll(x)`, what a slot is spent on while W = waiting(x). -/
def State.poll (s : State) (x : Reg) : State :=
  match s.pendingAnswer with
  | none => s.afterPendingQuery
  | some k => (s.afterPendingQuery.setReg x (BitVec.ofNat 8 k.val)).setWait none

end Sys2Proof.Machine
end

