-- ==== Sys2Proof/Machine/Dispatch.lean ====
section
/-! DEFINITION. The dispatcher: `execute(d)` of 40_execution_cycle.md R104 and R107, one arm per constructor of Instr. -/

namespace Sys2Proof.Machine

/-- Runs a decoded instruction on the state fetch left, PC = p + 2. -/
def exec (i : Instr) (s : State) : Host.Outcome State Fault Refusal :=
  match i with
  | .systemCallStub nnn => Sys2Proof.Machine.execSystemCallStub nnn s
  | .clearDisplay => Sys2Proof.Machine.execClearDisplay s
  | .ret => Sys2Proof.Machine.execRet s
  | .goto nnn => Sys2Proof.Machine.execGoto nnn s
  | .call nnn => Sys2Proof.Machine.execCall nnn s
  | .skipIfEqual x nn => Sys2Proof.Machine.execSkipIfEqual x nn s
  | .skipIfNotEqual x nn => Sys2Proof.Machine.execSkipIfNotEqual x nn s
  | .skipIfRegistersEqual x y => Sys2Proof.Machine.execSkipIfRegistersEqual x y s
  | .setRegister x nn => Sys2Proof.Machine.execSetRegister x nn s
  | .addImmediate x nn => Sys2Proof.Machine.execAddImmediate x nn s
  | .assignRegister x y => Sys2Proof.Machine.execAssignRegister x y s
  | .or x y => Sys2Proof.Machine.execOr x y s
  | .and x y => Sys2Proof.Machine.execAnd x y s
  | .xor x y => Sys2Proof.Machine.execXor x y s
  | .addRegisters x y => Sys2Proof.Machine.execAddRegisters x y s
  | .subtractRegisters x y => Sys2Proof.Machine.execSubtractRegisters x y s
  | .shiftRight x => Sys2Proof.Machine.execShiftRight x s
  | .reverseSubtract x y => Sys2Proof.Machine.execReverseSubtract x y s
  | .shiftLeft x => Sys2Proof.Machine.execShiftLeft x s
  | .skipIfRegistersNotEqual x y => Sys2Proof.Machine.execSkipIfRegistersNotEqual x y s
  | .setIndex nnn => Sys2Proof.Machine.execSetIndex nnn s
  | .jumpWithOffset nnn => Sys2Proof.Machine.execJumpWithOffset nnn s
  | .andRandom x nn => Sys2Proof.Machine.execAndRandom x nn s
  | .drawSprite x y n => Sys2Proof.Machine.execDrawSprite x y n s
  | .skipIfKeyPressed x => Sys2Proof.Machine.execSkipIfKeyPressed x s
  | .skipIfKeyNotPressed x => Sys2Proof.Machine.execSkipIfKeyNotPressed x s
  | .getDelayTimer x => Sys2Proof.Machine.execGetDelayTimer x s
  | .getKey x => Sys2Proof.Machine.execGetKey x s
  | .setDelayTimer x => Sys2Proof.Machine.execSetDelayTimer x s
  | .setSoundTimer x => Sys2Proof.Machine.execSetSoundTimer x s
  | .addToIndex x => Sys2Proof.Machine.execAddToIndex x s
  | .setIndexToFontGlyph x => Sys2Proof.Machine.execSetIndexToFontGlyph x s
  | .storeBcd x => Sys2Proof.Machine.execStoreBcd x s
  | .dumpRegisters x => Sys2Proof.Machine.execDumpRegisters x s
  | .loadRegisters x => Sys2Proof.Machine.execLoadRegisters x s

end Sys2Proof.Machine
end

