-- ==== Sys2Proof/Machine/Cycle.lean ====
section
/-! DEFINITION. Fetch, the cycle, the slot and the tick (40_execution_cycle.md), construction (70_reset_and_hazards.md R291), and
the block's outputs and run state. -/

namespace Sys2Proof.Machine

/-- R105: the addresses of the instruction's two bytes, both through `ea`, the first first. -/
def State.fetchAddrs (s : State) : Except Cause (Nat × Nat) :=
  match ea s.cfg.addrPolicy s.pc.toNat .fetch with
  | .error c => .error c
  | .ok a0 =>
    match ea s.cfg.addrPolicy (s.pc.toNat + 1) .fetch with
    | .error c => .error c
    | .ok a1 => .ok (a0, a1)

/-- R105: `fetch()`: the big-endian word at PC (R71), and the state with PC advanced by 2. -/
def State.fetch (s : State) : Except Cause (Word × State) :=
  match s.fetchAddrs with
  | .error c => .error c
  | .ok (a0, a1) => .ok (wordOfBytes (s.readByte a0) (s.readByte a1), s.advancePc)

/-- R104: `cycle()`, with p the PC it starts from. A fetch fault leaves PC = p, a decode or execute fault PC = p + 2 (R106,
60_exceptions.md R258). -/
def State.cycle (s : State) : Host.Outcome State Fault Refusal :=
  match s.fetch with
  | .error c => .next (s.raise c s.pc)
  | .ok (w, t) =>
    match decodeWord w with
    | .ok i => exec i t
    | .error _ => .next (t.raise (.unknownOpcode w) s.pc)

/-- R102: what a slot does when the block is not Faulted: a poll while it waits, else a cycle. -/
def State.slotBody (s : State) : Host.Outcome State Fault Refusal :=
  match s.wait with
  | some x => .next (s.poll x)
  | none => s.cycle

/-- R102: one slot of a tick, the timer decrement before its first one; in the Faulted state a tick has no effect at all (D13). -/
def State.runSlot (s : State) : Host.Outcome State Fault Refusal :=
  match s.fault with
  | some _ => .next s
  | none => s.beginSlot.slotBody

/-- The slots of one tick (R102): a fault ends them. -/
def State.runSlots : Nat → State → Host.Outcome State Fault Refusal
  | 0, s => .next s
  | n + 1, s =>
    match s.fault with
    | some _ => .next s
    | none =>
      match s.slotBody with
      | .next t => t.runSlots n
      | .fault r => .fault r
      | .refused r => .refused r

/-- R102: `tick()` as the host calls it, from a state between ticks. `step` runs the same slot by slot. -/
def State.tick (s : State) : Host.Outcome State Fault Refusal :=
  match s.fault with
  | some _ => .next s
  | none => s.decrementTimers.runSlots s.cfg.cyclesPerTick

/-- The state in which the next slot fetches the two given bytes: the block is made Running (F and W cleared), and a PC that
raises MemoryRange is put at the entry point 0x200. notes/assumptions/16.md. -/
def State.placeInstruction (s : State) (bytes : List Byte) : State :=
  let ready : State := { s with wait := none, fault := none }
  match s.fetchAddrs with
  | .ok (a0, a1) => ready.writeBytes ([a0, a1].zip bytes)
  | .error _ => (ready.setPc 0x200).writeBytes ([romBase, romBase + 1].zip bytes)

/-- R36. -/
def State.runState (s : State) : RunState :=
  match s.fault with
  | some _ => .faulted
  | none =>
    match s.wait with
    | some _ => .waiting
    | none => .running

/-- The output `fault` (R100, R37). -/
def State.faultOutput (s : State) : Option FaultRecord := s.fault

/-- The output `sound_timer` (R100, R32). -/
def State.soundTimer (s : State) : Byte := s.st

/-- R250: the code numbers. -/
def Cause.code : Cause → Nat
  | .unknownOpcode _ => 1
  | .memoryRange _ _ => 2
  | .stackOverflow _ => 3
  | .emptyStackReturn => 4

/-- R291, R255: `reset(rom)` at the parameters cfg. A ROM longer than 0x1000 - 0x200 bytes is refused; else the memory holds zeros,
the font and the ROM, and all else is as State.reset has it. -/
def State.construct (cfg : Config) (rom : List Byte) : Host.Outcome State Fault Refusal :=
  if 3584 < rom.length then .refused (.loadError rom.length)
  else
    let blank : State := { State.reset with cfg := cfg }
    .next (blank.writeBytes ((List.range' romBase rom.length).zip rom))

end Sys2Proof.Machine
end

