-- ==== Sys2Proof/Machine/Step.lean ====
section
/-! DEFINITION. One step of the machine: one cycle slot of a tick (40_execution_cycle.md R102, R110). notes/assumptions/1.md. -/

namespace Sys2Proof.Machine

/-- One slot of a tick. -/
def step (s : State) : Host.Outcome State Fault Refusal := s.runSlot

/-- For the host: s with the table's word stored where `step` fetches next, so that the very next step runs it.
notes/assumptions/16.md. -/
def State.withFetchWord (s : State) (nbits w : Nat) : State := s.placeInstruction (bytesOfWord (tableWord nbits w))

end Sys2Proof.Machine
end

