-- ==== Sys2Proof/Safety.lean ====
section
/-! DEFINITION. The words the statements are written in: the invariant of the machine (10_state.md R45), what a step may write
(10_state.md R25), and a run without a fault. -/

namespace Sys2Proof.Machine

/-- R45: `len(S) <= STACK_DEPTH` when STACK_DEPTH is finite. -/
def State.stackBounded (s : State) : Bool :=
  match s.cfg.stackDepth with
  | none => true
  | some d => decide (s.stack.length ≤ d)

/-- 60_exceptions.md R250, the last two columns: when a cause can have been raised. -/
def Cause.possible (cfg : Config) : Cause → Bool
  | .unknownOpcode w => !(decodeWord w).isOk
  | .memoryRange a _ => decide (0xFFF < a) && cfg.addrPolicy == .fault
  | .stackOverflow d => cfg.stackDepth == some d
  | .emptyStackReturn => cfg.emptyRet == .fault

/-- A recorded fault is one that can occur; the block did not wait when it was raised (R101), and the tick it ended is over (R258). -/
def State.faultConsistent (s : State) : Bool :=
  match s.fault with
  | none => true
  | some f => f.cause.possible s.cfg && s.wait.isNone && s.slot == 0

/-- What holds of the machine in every reachable state (R45): a legal configuration, memory in canonical form, the stack within
STACK_DEPTH, the slot count within the tick's budget, and a consistent fault record. -/
def State.inv (s : State) : Bool :=
  s.cfg.wf && Memory.wf s.cfg.font s.mem && s.stackBounded && decide (s.slot < s.cfg.cyclesPerTick) && s.faultConsistent

/-- No fault has been recorded: the premise under which a run is a successful one (40_execution_cycle.md R113, 60_exceptions.md R258). -/
def State.healthy (s : State) : Bool := s.fault.isNone

/-- What an instruction may write (R25): the registers and the memory cells by name, each other piece of state by a flag. `requests`
stands for the answers of the input and random ports used up, `fault` for the fault record and the end of the tick with it. -/
structure Writes where
  regs     : List Reg := []
  cells    : List Nat := []
  pc       : Bool := false
  index    : Bool := false
  delay    : Bool := false
  sound    : Bool := false
  stack    : Bool := false
  wait     : Bool := false
  fault    : Bool := false
  display  : Bool := false
  requests : Bool := false
  deriving DecidableEq, Repr

/-- From s to t nothing but what w names has changed. Memory is said byte by byte; where no cell is named it is the same list. -/
structure Frame (w : Writes) (s t : State) : Prop where
  cfg     : t.cfg = s.cfg
  regs    : ∀ j : Reg, j ∉ w.regs → t.reg j = s.reg j
  cells   : ∀ a : Nat, a ∉ w.cells → t.readByte a = s.readByte a
  mem     : w.cells = [] → t.mem = s.mem
  pc      : w.pc = false → t.pc = s.pc
  index   : w.index = false → t.i = s.i
  delay   : w.delay = false → t.dt = s.dt
  sound   : w.sound = false → t.st = s.st
  stack   : w.stack = false → t.stack = s.stack
  wait    : w.wait = false → t.wait = s.wait
  fault   : w.fault = false → t.fault = s.fault ∧ t.slot = s.slot
  display : w.display = false → t.fb = s.fb
  requests : w.requests = false → t.requests = s.requests ∧ t.keyAnswers = s.keyAnswers ∧
    t.pendingAnswers = s.pendingAnswers ∧ t.randomAnswers = s.randomAnswers

/-- An address list as memory cells to write: none when the addresses raise MemoryRange. -/
def cellsOf : Except Cause (List Nat) → List Nat
  | .ok as => as
  | .error _ => []

/-- The table of R25, with `fault` for the instructions R250 lists as raising one. The addresses are those the meaning itself stores
to, `State.indexed` on the state the instruction starts in. -/
def writesOf (s : State) : Instr → Writes
  | .systemCallStub _ => {}
  | .clearDisplay => { display := true }
  | .ret => { pc := true, stack := true, fault := true }
  | .goto _ => { pc := true }
  | .call _ => { pc := true, stack := true, fault := true }
  | .skipIfEqual _ _ => { pc := true }
  | .skipIfNotEqual _ _ => { pc := true }
  | .skipIfRegistersEqual _ _ => { pc := true }
  | .setRegister x _ => { regs := [x] }
  | .addImmediate x _ => { regs := [x] }
  | .assignRegister x _ => { regs := [x] }
  | .or x _ => { regs := [x] }
  | .and x _ => { regs := [x] }
  | .xor x _ => { regs := [x] }
  | .addRegisters x _ => { regs := [VF, x] }
  | .subtractRegisters x _ => { regs := [VF, x] }
  | .shiftRight x => { regs := if s.cfg.shiftCommit then [VF, x] else [VF] }
  | .reverseSubtract x _ => { regs := [VF, x] }
  | .shiftLeft x => { regs := if s.cfg.shiftCommit then [VF, x] else [VF] }
  | .skipIfRegistersNotEqual _ _ => { pc := true }
  | .setIndex _ => { index := true }
  | .jumpWithOffset _ => { pc := true }
  | .andRandom x _ => { regs := [x], requests := true }
  | .drawSprite _ _ _ => { regs := [VF], display := true, fault := true }
  | .skipIfKeyPressed _ => { pc := true, requests := true }
  | .skipIfKeyNotPressed _ => { pc := true, requests := true }
  | .getDelayTimer x => { regs := [x] }
  | .getKey _ => { wait := true }
  | .setDelayTimer _ => { delay := true }
  | .setSoundTimer _ => { sound := true }
  | .addToIndex _ => { index := true }
  | .setIndexToFontGlyph _ => { index := true }
  | .storeBcd _ => { cells := cellsOf (s.indexed 3 .write), fault := true }
  | .dumpRegisters x => { cells := cellsOf (s.indexed (x.val + 1) .write), fault := true }
  | .loadRegisters x => { regs := regsUpTo x, fault := true }

/-- The word a fetch at PC reads, under either address policy where it can read at all (40_execution_cycle.md R105, 30_encoding.md R71). -/
def State.nextWord (s : State) : Word :=
  wordOfBytes (s.readByte (s.pc.toNat % 4096)) (s.readByte ((s.pc.toNat + 1) % 4096))

/-- A fetch at PC raises nothing: both byte addresses are at most 0xFFF, or the policy masks them (R57, R105). -/
abbrev State.fetchable (s : State) : Prop := s.cfg.addrPolicy = .mask ∨ s.pc.toNat + 1 ≤ 0xFFF

/-- The `count` bytes from I raise nothing (R57, R196). -/
abbrev State.indexInRange (s : State) (count : Nat) : Prop :=
  s.cfg.addrPolicy = .mask ∨ count = 0 ∨ s.i.toNat + (count - 1) ≤ 0xFFF

/-- R212: the sprite of n rows at I, drawn at the coordinates in V[x] and V[y], has a set bit on the cell (col, row). -/
def State.spriteCovers (s : State) (x y : Reg) (n : Nibble) (col row : Nat) : Bool :=
  decide (s.spriteCoord x ≤ col) && decide (col < s.spriteCoord x + 8) &&
    decide (s.spriteCoord y ≤ row) && decide (row < s.spriteCoord y + n.toNat) &&
    (s.readByte ((s.i.toNat + (row - s.spriteCoord y)) % 4096)).getLsbD (7 - (col - s.spriteCoord x))

end Sys2Proof.Machine
end

