-- ==== Sys2Proof/Certificates/Slice0/Obligations.lean ====
section
/-! DEFINITION. The statements for the provers. Each is named after what it says; its docstring names the rules of spec/ it comes
from. `Frame` and `Writes` are Safety.lean's: nothing but what is named has changed, memory said byte by byte. A statement that
rests on a choice the spec marks as its own ("decision: see 92_eei_decisions.md D<n>") names that choice. The parameters are
quantified over: each statement is about every state, and the parameters are the state's field `cfg`. -/

open Sys2Proof Sys2Proof.Machine

/-! ### Encoding -/

/-- R71, R78 to R82 on words written out from the tables: T3, T5, T6, T7, T9, T18 of 95_test_vectors.md, and words of each group. -/
def Obligations.SpecWordsDecode : Prop :=
  decodeWord 0x01E0 = .ok .clearDisplay ∧ decodeWord 0x0FEE = .ok .ret ∧ decodeWord 0x00E1 = .ok (.systemCallStub 0x0E1) ∧
  decodeWord 0x1228 = .ok (.goto 0x228) ∧ decodeWord 0x5127 = .ok (.skipIfRegistersEqual 1 2) ∧
  decodeWord 0x6F01 = .ok (.setRegister 0xF 0x01) ∧ decodeWord 0x8126 = .ok (.shiftRight 1) ∧
  decodeWord 0xBFFF = .ok (.jumpWithOffset 0xFFF) ∧ decodeWord 0xDAB5 = .ok (.drawSprite 0xA 0xB 5) ∧
  decodeWord 0xE5A1 = .ok (.skipIfKeyNotPressed 5) ∧ decodeWord 0xF133 = .ok (.storeBcd 1) ∧
  decodeWord 0xF20A = .ok (.getKey 2) ∧ decodeWord 0x800D = .error (.unknownOpcode 0x800D)

/-- R83: decoding the word of an instruction gives it back, every operand at every value, for all 35 variants; and so do its two
bytes in memory order (R71), whatever follows them. -/
def Obligations.DecodeEncodeRoundTrip : Prop :=
  ∀ i : Instr, i.wf = true →
    decodeWord (encode i) = .ok i ∧ ∀ rest : List Byte, decode (encodeBytes i ++ rest) = .ok (i, rest)

/-- R76, R84: a decoded word agrees with its instruction's assembled word on every bit but the ignored ones, and every word that agrees
with it there decodes to the same variant with the same operands. -/
def Obligations.OnlyIgnoredBitsAreDropped : Prop :=
  ∀ (w : Word) (i : Instr), decodeWord w = .ok i →
    i.wf = true ∧ w &&& i.decodedBits = encode i ∧ ∀ w' : Word, w' &&& i.decodedBits = encode i → decodeWord w' = .ok i

/-- R85: the illegal words are exactly these, and the error carries the raw word (R251). -/
def Obligations.IllegalWordsAreExactlyThese : Prop :=
  ∀ w : Word,
    (decodeWord w = .error (.unknownOpcode w) ↔
      (opField w = 0x8 ∧ nField w ∈ [0x8, 0x9, 0xA, 0xB, 0xC, 0xD, 0xF]) ∨
      (opField w = 0xE ∧ nnField w ∉ [0x9E, 0xA1]) ∨
      (opField w = 0xF ∧ nnField w ∉ [0x07, 0x0A, 0x15, 0x18, 0x1E, 0x29, 0x33, 0x55, 0x65])) ∧
    ∀ e, decodeWord w = .error e → e = .unknownOpcode w

/-! ### The step, the slot and the tick -/

/-- R104, R105, R107: while the block is Running and the bytes at PC decode to i, a step is `exec i` on the state whose slot has begun
(`SlotBeginsWithTheTimers` says what that is) and whose PC has moved past the instruction's word. That a step is one slot is
notes/assumptions/1.md; that PC = 0xFFFF goes to 0x0001 is the model's choice (notes/assumptions/21.md). -/
def Obligations.StepRunsDecodedInstruction : Prop :=
  ∀ (s : State) (i : Instr), s.fault = none → s.wait = none → s.fetchable → decodeWord s.nextWord = .ok i →
    step s = exec i s.beginSlot.advancePc ∧ s.beginSlot.advancePc.pc = s.pc + 2 ∧
      Frame { pc := true } s.beginSlot s.beginSlot.advancePc

/-- R102, R103, R38, R111: beginning a slot counts both timers down once, floored at 0, when it is the first of its tick, and not
otherwise; it counts the slot, back to 0 at the tick's last (notes/assumptions/1.md); it changes nothing else. -/
def Obligations.SlotBeginsWithTheTimers : Prop :=
  ∀ s : State,
    s.beginSlot.dt.toNat = (if s.slot = 0 then s.dt.toNat - 1 else s.dt.toNat) ∧
    s.beginSlot.st.toNat = (if s.slot = 0 then s.st.toNat - 1 else s.st.toNat) ∧
    s.beginSlot.slot = (if s.slot + 1 < s.cfg.cyclesPerTick then s.slot + 1 else 0) ∧
    s.beginSlot.fault = s.fault ∧
    Frame { delay := true, sound := true, fault := true } s s.beginSlot

/-- R64, R71: a word placed where PC fetches is the instruction the very next step runs. At a PC that cannot be fetched from, the
helper moves PC to 0x200 first (the model's choice, notes/assumptions/16.md). -/
def Obligations.PlacedInstructionRunsNext : Prop :=
  ∀ (s : State) (w : Nat) (i : Instr), decodeWord (BitVec.ofNat 16 w) = .ok i →
    step (s.withFetchWord 16 w) = exec i (s.withFetchWord 16 w).beginSlot.advancePc ∧
    (s.fetchable → Frame { cells := [s.pc.toNat % 4096, (s.pc.toNat + 1) % 4096], wait := true, fault := true } s (s.withFetchWord 16 w)) ∧
    (¬ s.fetchable → (s.withFetchWord 16 w).pc = 0x200 ∧
      Frame { cells := [0x200, 0x201], pc := true, wait := true, fault := true } s (s.withFetchWord 16 w))

/-- R108: while W = waiting(x) a slot polls the input port once and does nothing else: a key goes to V[x] and ends the wait, `none`
leaves it. `pendingAnswer` is the port's free answer: the statement holds for every answer. -/
def Obligations.WaitingSlotPolls : Prop :=
  ∀ (s : State) (x : Reg), s.fault = none → s.wait = some x →
    ∃ t, step s = .next t ∧
      (∀ k : Key, s.pendingAnswer = some k →
        (t.reg x).toNat = k.val ∧ t.wait = none ∧ Frame { regs := [x], wait := true, requests := true } s.beginSlot t) ∧
      (s.pendingAnswer = none → Frame { requests := true } s.beginSlot t) ∧
      t.requests = s.requests + 1 ∧ t.pendingAnswers = s.pendingAnswers.tail ∧
      t.keyAnswers = s.keyAnswers ∧ t.randomAnswers = s.randomAnswers

/-- R105, R258 (with the spec's own choices D2 and D14): a fetch out of range records MemoryRange with the first address out of range
and leaves PC = p. The slot count 0 after a fault is the model's (notes/assumptions/14.md), here and wherever a fault is stated. -/
def Obligations.FetchOutOfRangeFaults : Prop :=
  ∀ s : State, s.fault = none → s.wait = none → s.cfg.addrPolicy = .fault → 0xFFF ≤ s.pc.toNat →
    ∃ t, step s = .next t ∧
      t.fault = some ⟨.memoryRange (if s.pc.toNat ≤ 0xFFF then s.pc.toNat + 1 else s.pc.toNat) .fetch, s.pc⟩ ∧
      t.slot = 0 ∧ Frame { fault := true } s.beginSlot t

/-- R106: an unknown word is fatal: the record carries the raw word, PC is p + 2, nothing else has changed. The slot count 0 is
notes/assumptions/14.md; p = 0xFFFF gives PC = 0x0001 by the model's choice (notes/assumptions/21.md). -/
def Obligations.UnknownWordFaults : Prop :=
  ∀ s : State, s.fault = none → s.wait = none → s.fetchable → decodeWord s.nextWord = .error (.unknownOpcode s.nextWord) →
    ∃ t, step s = .next t ∧ t.fault = some ⟨.unknownOpcode s.nextWord, s.pc⟩ ∧ t.pc = s.pc + 2 ∧ t.slot = 0 ∧
      Frame { pc := true, fault := true } s.beginSlot t

/-- R102, R259 (the spec's own choice D13): in the Faulted state neither a step nor a tick has any effect. -/
def Obligations.FaultedBlockIsInert : Prop :=
  ∀ (s : State) (f : FaultRecord), s.fault = some f →
    s.runState = .faulted ∧ s.faultOutput = some f ∧ step s = .next s ∧ s.tick = .next s

/-- R102, R111: run from a state between ticks, a tick's budget of steps is the tick: the timer decrement once, then the slots, a fault
ending them. That a step is one slot, and what the slot count is between ticks, is the model's reading (notes/assumptions/1.md,
notes/assumptions/14.md). -/
def Obligations.TickIsItsBudgetOfSteps : Prop :=
  ∀ s : State, s.slot = 0 → 1 ≤ s.cfg.cyclesPerTick →
    Host.Core.run Sys2Proof.core s.cfg.cyclesPerTick s = s.tick

/-- R250, R256, R258: no instruction, step or tick ends outside the machine: every exception is a next state with the record written. -/
def Obligations.EverythingAnswersANextState : Prop :=
  (∀ (i : Instr) (s : State), ∃ t, exec i s = .next t) ∧ (∀ s : State, ∃ t, step s = .next t) ∧ (∀ s : State, ∃ t, s.tick = .next t)

/-- R64, R294, R105: a word that dump-registers has just stored where PC stands is the instruction the very next step runs. Slots as
steps is notes/assumptions/1.md; p = 0xFFFF gives PC = 0x0001 by the model's choice (notes/assumptions/21.md). -/
def Obligations.StoredWordRunsNext : Prop :=
  ∀ (s : State) (x : Reg) (i : Instr), s.fault = none → s.wait = none → s.fetchable →
    decodeWord s.nextWord = .ok (.dumpRegisters x) → 1 ≤ x → s.i = s.pc + 2 → s.indexInRange (x.val + 1) →
    decodeWord (wordOfBytes (s.reg 0) (s.reg 1)) = .ok i →
    ∃ t, step s = .next t ∧ t.pc = s.pc + 2 ∧ step t = exec i t.beginSlot.advancePc

/-! ### Invariants and whole-machine rules -/

/-- R45 with R250's last column and R101: every step keeps the invariant: a legal configuration, memory in canonical form inside the
address space, the stack within STACK_DEPTH, the slot count within the budget, and a fault record that can have been raised. -/
def Obligations.StepKeepsInvariant : Prop :=
  ∀ s t : State, s.inv = true → step s = .next t → t.inv = true

/-- R45, R291: the invariant holds at reset. -/
def Obligations.ResetMeetsInvariant : Prop := State.reset.inv = true

/-- R44: no step and no tick changes the configuration. -/
def Obligations.StepKeepsConfiguration : Prop :=
  ∀ s t : State, (step s = .next t ∨ s.tick = .next t) → t.cfg = s.cfg

/-- R258 (the spec's own choice D14): an instruction that raises an exception changes nothing but the fault record and ends the tick; the
record names the instruction's own address, and its cause is one R250 admits under the configuration. -/
def Obligations.ExecuteFaultsArePrecise : Prop :=
  ∀ (i : Instr) (s t : State), s.fault = none → exec i s = .next t → t.fault ≠ none →
    ∃ c, t = { s with fault := some ⟨c, s.pc - 2⟩, slot := 0 } ∧ c.possible s.cfg = true

/-- R25 (with R250 for the fault record): each of the 35 instructions writes only what the table gives it. The addresses are those of
`State.indexed`, which the meanings store to; that no byte at all is written where they are out of range (`cellsOf` of an error
is empty) is the spec's own choice D14 (notes/assumptions/11.md); that the slot count goes with the fault record is
notes/assumptions/14.md. -/
def Obligations.InstructionsWriteOnlyTheirTable : Prop :=
  ∀ (i : Instr) (s t : State), exec i s = .next t → Frame (writesOf s i) s t

/-- R101, R36: Faulted is left by no step, Waiting never becomes Faulted, and Running becomes Waiting only by get-key. -/
def Obligations.RunStateTransitions : Prop :=
  ∀ s t : State, step s = .next t →
    (s.runState = .faulted → t.runState = .faulted) ∧
    (s.runState = .waiting → t.runState = .waiting ∨ t.runState = .running) ∧
    (s.runState = .running → t.runState = .waiting → ∃ x, decodeWord s.nextWord = .ok (.getKey x) ∧ t.wait = some x)

/-- R25, R30, R31, R33, R54: over a whole step, memory is changed only by store-bcd and dump-registers, I only by set-index, add-to-index
and set-index-to-font-glyph, S only by call and return, the framebuffer only by clear-display and draw-sprite, and, but for the
tick's decrement, DT only by set-delay-timer and ST only by set-sound-timer. -/
def Obligations.OnlyTheirWritersChangeThem : Prop :=
  ∀ s t : State, step s = .next t →
    (t.mem ≠ s.mem → ∃ x, decodeWord s.nextWord = .ok (.storeBcd x) ∨ decodeWord s.nextWord = .ok (.dumpRegisters x)) ∧
    (t.i ≠ s.i → (∃ nnn, decodeWord s.nextWord = .ok (.setIndex nnn)) ∨
      ∃ x, decodeWord s.nextWord = .ok (.addToIndex x) ∨ decodeWord s.nextWord = .ok (.setIndexToFontGlyph x)) ∧
    (t.stack ≠ s.stack → (∃ nnn, decodeWord s.nextWord = .ok (.call nnn)) ∨ decodeWord s.nextWord = .ok .ret) ∧
    (t.fb ≠ s.fb → decodeWord s.nextWord = .ok .clearDisplay ∨ ∃ x y n, decodeWord s.nextWord = .ok (.drawSprite x y n)) ∧
    (s.slot ≠ 0 → t.dt ≠ s.dt → ∃ x, decodeWord s.nextWord = .ok (.setDelayTimer x)) ∧
    (s.slot ≠ 0 → t.st ≠ s.st → ∃ x, decodeWord s.nextWord = .ok (.setSoundTimer x))

/-- R32: no instruction reads ST: two runs that differ in ST alone differ after the instruction in ST alone, and not at all after
set-sound-timer. -/
def Obligations.NoInstructionReadsSoundTimer : Prop :=
  ∀ (i : Instr) (s t : State) (b : Byte), exec i s = .next t →
    ((∀ x, i ≠ .setSoundTimer x) → exec i { s with st := b } = .next { t with st := b }) ∧
    ((∃ x, i = .setSoundTimer x) → exec i { s with st := b } = .next t)

/-- R172, R25: no instruction but and-random asks the random port: two runs that differ in what the port would answer differ after any
other instruction in that alone. -/
def Obligations.OnlyAndRandomAsksTheRandomPort : Prop :=
  ∀ (i : Instr) (s t : State) (l : List Byte), (∀ x nn, i ≠ .andRandom x nn) → exec i s = .next t →
    exec i { s with randomAnswers := l } = .next { t with randomAnswers := l }

/-! ### Reset -/

/-- R20, R26, R291: the state after construction with the default parameters and the empty ROM. PC = 0x200, zero-filled memory, the empty
stack, no wait and no fault are the document's; V, I, DT and ST = 0 are the spec's own choice D6 (notes/assumptions/3.md), the clear
framebuffer its choice D24 (notes/assumptions/4.md). -/
def Obligations.ResetState : Prop :=
  State.construct Config.standard [] = .next State.reset ∧
  State.reset.pc = 0x200 ∧ State.reset.stack = [] ∧ State.reset.wait = none ∧ State.reset.fault = none ∧
  State.reset.runState = .running ∧ (∀ a, a < 0x050 ∨ 0x0A0 ≤ a → State.reset.readByte a = 0) ∧
  (∀ x, State.reset.reg x = 0) ∧ State.reset.i = 0 ∧ State.reset.dt = 0 ∧ State.reset.st = 0 ∧
  (∀ c r, State.reset.fb.get c r = false)

/-- R52, R53, R255, R291, R292: construction zero-fills, writes the font at 0x050 and the ROM at 0x200, and leaves all else as at reset
(the spec's own choices D6 and D24, notes/assumptions/3.md and 4.md); a ROM of more than 3584 bytes is refused (D7). -/
def Obligations.ConstructionLoadsFontAndRom : Prop :=
  ∀ (cfg : Config) (rom : List Byte),
    (rom.length ≤ 3584 → ∃ t, State.construct cfg rom = .next t ∧
      (∀ (k : Nat) (h : k < rom.length), t.readByte (0x200 + k) = rom[k]) ∧
      (∀ (g : Fin 16) (r : Fin 5), t.readByte (0x050 + 5 * g.val + r.val) = (cfg.font[g.val])[r.val]) ∧
      (∀ a, a < 0x050 ∨ (0x0A0 ≤ a ∧ a < 0x200) ∨ 0x200 + rom.length ≤ a → t.readByte a = 0) ∧
      t = { State.reset with cfg := cfg, mem := t.mem } ∧ Memory.wf cfg.font t.mem = true) ∧
    (3584 < rom.length → State.construct cfg rom = .refused (.loadError rom.length))

/-! ### Control transfer -/

/-- R120. -/
def Obligations.SystemCallStubDoesNothing : Prop :=
  ∀ (nnn : Addr12) (s : State),
    ((Instr.systemCallStub nnn).wf = true → decodeWord (wordNNN 0x0 nnn) = .ok (.systemCallStub nnn)) ∧
    exec (.systemCallStub nnn) s = .next s

/-- R121 (the reading of "PC unchanged" is the spec's own, D3): a return pops S into PC; on an empty S it does nothing or records
EmptyStackReturn, as EMPTY_RET says. The second nibble is ignored (R78). -/
def Obligations.ReturnPopsOrFollowsPolicy : Prop :=
  ∀ (z : Reg) (s : State),
    decodeWord (wordXNN 0x0 z 0xEE) = .ok .ret ∧
    (∀ (rest : List Word) (a : Word), s.stack = rest ++ [a] →
      ∃ t, exec .ret s = .next t ∧ t.pc = a ∧ t.stack = rest ∧ Frame { pc := true, stack := true } s t) ∧
    (s.stack = [] → s.cfg.emptyRet = .noop → exec .ret s = .next s) ∧
    (s.stack = [] → s.cfg.emptyRet = .fault →
      ∃ t, exec .ret s = .next t ∧ t.fault = some ⟨.emptyStackReturn, s.pc - 2⟩ ∧ t.slot = 0 ∧ Frame { fault := true } s t)

/-- R122. -/
def Obligations.GotoSetsPc : Prop :=
  ∀ (nnn : Addr12) (s : State),
    decodeWord (wordNNN 0x1 nnn) = .ok (.goto nnn) ∧
    ∃ t, exec (.goto nnn) s = .next t ∧ t.pc.toNat = nnn.toNat ∧ Frame { pc := true } s t

/-- R123 (StackOverflow is the spec's own, D4): a call pushes PC, the address after it, and jumps; with a finite STACK_DEPTH and a full S it
records StackOverflow and pushes nothing. -/
def Obligations.CallPushesReturnAddress : Prop :=
  ∀ (nnn : Addr12) (s : State),
    decodeWord (wordNNN 0x2 nnn) = .ok (.call nnn) ∧
    (s.cfg.stackDepth ≠ some s.stack.length →
      ∃ t, exec (.call nnn) s = .next t ∧ t.stack = s.stack ++ [s.pc] ∧ t.pc.toNat = nnn.toNat ∧
        Frame { pc := true, stack := true } s t) ∧
    (s.cfg.stackDepth = some s.stack.length →
      ∃ t, exec (.call nnn) s = .next t ∧ t.fault = some ⟨.stackOverflow s.stack.length, s.pc - 2⟩ ∧ t.slot = 0 ∧
        Frame { fault := true } s t)

/-- R124: the sum never wraps. -/
def Obligations.JumpWithOffsetAddsV0 : Prop :=
  ∀ (nnn : Addr12) (s : State),
    decodeWord (wordNNN 0xB nnn) = .ok (.jumpWithOffset nnn) ∧
    ∃ t, exec (.jumpWithOffset nnn) s = .next t ∧ t.pc.toNat = nnn.toNat + (s.reg 0).toNat ∧ Frame { pc := true } s t

/-! ### Skips -/

/-- R141, R142. -/
def Obligations.ImmediateSkips : Prop :=
  ∀ (x : Reg) (nn : Byte) (s : State),
    decodeWord (wordXNN 0x3 x nn) = .ok (.skipIfEqual x nn) ∧
    (∃ t, exec (.skipIfEqual x nn) s = .next t ∧
      t.pc.toNat = (if s.reg x = nn then (s.pc.toNat + 2) % 65536 else s.pc.toNat) ∧ Frame { pc := true } s t) ∧
    decodeWord (wordXNN 0x4 x nn) = .ok (.skipIfNotEqual x nn) ∧
    (∃ t, exec (.skipIfNotEqual x nn) s = .next t ∧
      t.pc.toNat = (if s.reg x ≠ nn then (s.pc.toNat + 2) % 65536 else s.pc.toNat) ∧ Frame { pc := true } s t)

/-- R143, R144: the trailing nibble n is ignored. -/
def Obligations.RegisterSkips : Prop :=
  ∀ (x y : Reg) (n : Nibble) (s : State),
    decodeWord (wordXYN 0x5 x y n) = .ok (.skipIfRegistersEqual x y) ∧
    (∃ t, exec (.skipIfRegistersEqual x y) s = .next t ∧
      t.pc.toNat = (if s.reg x = s.reg y then (s.pc.toNat + 2) % 65536 else s.pc.toNat) ∧ Frame { pc := true } s t) ∧
    decodeWord (wordXYN 0x9 x y n) = .ok (.skipIfRegistersNotEqual x y) ∧
    (∃ t, exec (.skipIfRegistersNotEqual x y) s = .next t ∧
      t.pc.toNat = (if s.reg x ≠ s.reg y then (s.pc.toNat + 2) % 65536 else s.pc.toNat) ∧ Frame { pc := true } s t)

/-- R231, R232, with the port's answer unconstrained (the spec's own D12): one request each, for the raw value of V[x]. `keyAnswer` is
the free answer: the statement holds for every answer. -/
def Obligations.KeySkips : Prop :=
  ∀ (x : Reg) (s : State),
    decodeWord (wordXNN 0xE x 0x9E) = .ok (.skipIfKeyPressed x) ∧
    (∃ t, exec (.skipIfKeyPressed x) s = .next t ∧
      t.pc.toNat = (if s.keyAnswer (s.reg x) = true then (s.pc.toNat + 2) % 65536 else s.pc.toNat) ∧
      t.requests = s.requests + 1 ∧ t.keyAnswers = s.keyAnswers.tail ∧ t.pendingAnswers = s.pendingAnswers ∧
      t.randomAnswers = s.randomAnswers ∧ Frame { pc := true, requests := true } s t) ∧
    decodeWord (wordXNN 0xE x 0xA1) = .ok (.skipIfKeyNotPressed x) ∧
    (∃ t, exec (.skipIfKeyNotPressed x) s = .next t ∧
      t.pc.toNat = (if s.keyAnswer (s.reg x) = false then (s.pc.toNat + 2) % 65536 else s.pc.toNat) ∧
      t.requests = s.requests + 1 ∧ t.keyAnswers = s.keyAnswers.tail ∧ t.pendingAnswers = s.pendingAnswers ∧
      t.randomAnswers = s.randomAnswers ∧ Frame { pc := true, requests := true } s t)

/-! ### Register arithmetic and logic -/

/-- R161, R162, R163: VF is written only as the destination. -/
def Obligations.LoadsAndImmediateAdd : Prop :=
  ∀ (x y : Reg) (nn : Byte) (s : State),
    decodeWord (wordXNN 0x6 x nn) = .ok (.setRegister x nn) ∧
    (∃ t, exec (.setRegister x nn) s = .next t ∧ t.reg x = nn ∧ Frame { regs := [x] } s t) ∧
    decodeWord (wordXNN 0x7 x nn) = .ok (.addImmediate x nn) ∧
    (∃ t, exec (.addImmediate x nn) s = .next t ∧ (t.reg x).toNat = ((s.reg x).toNat + nn.toNat) % 256 ∧ Frame { regs := [x] } s t) ∧
    decodeWord (wordXYN 0x8 x y 0x0) = .ok (.assignRegister x y) ∧
    (∃ t, exec (.assignRegister x y) s = .next t ∧ t.reg x = s.reg y ∧ Frame { regs := [x] } s t)

/-- R164, R165, R166: bit by bit, and no flag. -/
def Obligations.LogicWritesNoFlag : Prop :=
  ∀ (x y : Reg) (s : State),
    decodeWord (wordXYN 0x8 x y 0x1) = .ok (.or x y) ∧
    (∃ t, exec (.or x y) s = .next t ∧
      (∀ k, (t.reg x).getLsbD k = ((s.reg x).getLsbD k || (s.reg y).getLsbD k)) ∧ Frame { regs := [x] } s t) ∧
    decodeWord (wordXYN 0x8 x y 0x2) = .ok (.and x y) ∧
    (∃ t, exec (.and x y) s = .next t ∧
      (∀ k, (t.reg x).getLsbD k = ((s.reg x).getLsbD k && (s.reg y).getLsbD k)) ∧ Frame { regs := [x] } s t) ∧
    decodeWord (wordXYN 0x8 x y 0x3) = .ok (.xor x y) ∧
    (∃ t, exec (.xor x y) s = .next t ∧
      (∀ k, (t.reg x).getLsbD k = ((s.reg x).getLsbD k ^^ (s.reg y).getLsbD k)) ∧ Frame { regs := [x] } s t)

/-- R167: the sum mod 256 and the carry. With x = 15 the result stays in VF and the flag is lost: the spec's own choice D8 (R160). -/
def Obligations.AddRegistersCarries : Prop :=
  ∀ (x y : Reg) (s : State),
    decodeWord (wordXYN 0x8 x y 0x4) = .ok (.addRegisters x y) ∧
    ∃ t, exec (.addRegisters x y) s = .next t ∧
      (t.reg x).toNat = ((s.reg x).toNat + (s.reg y).toNat) % 256 ∧
      (x ≠ 15 → t.reg 15 = if 255 < (s.reg x).toNat + (s.reg y).toNat then 1 else 0) ∧
      Frame { regs := [15, x] } s t

/-- R168, R170: the difference mod 256 and the strict "greater than" flag. With x = 15 the result stays in VF: D8 (R160). -/
def Obligations.SubtractionsFlagGreater : Prop :=
  ∀ (x y : Reg) (s : State),
    decodeWord (wordXYN 0x8 x y 0x5) = .ok (.subtractRegisters x y) ∧
    (∃ t, exec (.subtractRegisters x y) s = .next t ∧
      (t.reg x).toNat = ((s.reg x).toNat + 256 - (s.reg y).toNat) % 256 ∧
      (x ≠ 15 → t.reg 15 = if (s.reg y).toNat < (s.reg x).toNat then 1 else 0) ∧
      Frame { regs := [15, x] } s t) ∧
    decodeWord (wordXYN 0x8 x y 0x7) = .ok (.reverseSubtract x y) ∧
    (∃ t, exec (.reverseSubtract x y) s = .next t ∧
      (t.reg x).toNat = ((s.reg y).toNat + 256 - (s.reg x).toNat) % 256 ∧
      (x ≠ 15 → t.reg 15 = if (s.reg x).toNat < (s.reg y).toNat then 1 else 0) ∧
      Frame { regs := [15, x] } s t)

/-- R169, R171: VF takes the bit shifted out; V[x] takes the shifted value when SHIFT_COMMIT (D26) and keeps its value when not (but for
x = 15, where the flag is written to it). With x = 15 and SHIFT_COMMIT the result stays in VF: D8 (R160). The third nibble is ignored. -/
def Obligations.ShiftsMoveOneBit : Prop :=
  ∀ (x z : Reg) (s : State),
    decodeWord (wordXYN 0x8 x z 0x6) = .ok (.shiftRight x) ∧
    (∃ t, exec (.shiftRight x) s = .next t ∧
      (s.cfg.shiftCommit = true → (t.reg x).toNat = (s.reg x).toNat / 2) ∧
      (s.cfg.shiftCommit = false ∨ x ≠ 15 → (t.reg 15).toNat = (s.reg x).toNat % 2) ∧
      Frame { regs := if s.cfg.shiftCommit then [15, x] else [15] } s t) ∧
    decodeWord (wordXYN 0x8 x z 0xE) = .ok (.shiftLeft x) ∧
    (∃ t, exec (.shiftLeft x) s = .next t ∧
      (s.cfg.shiftCommit = true → (t.reg x).toNat = (s.reg x).toNat * 2 % 256) ∧
      (s.cfg.shiftCommit = false ∨ x ≠ 15 → (t.reg 15).toNat = (s.reg x).toNat / 128) ∧
      Frame { regs := if s.cfg.shiftCommit then [15, x] else [15] } s t)

/-- R172, the byte unconstrained (the spec's own D20): exactly one request, whatever nn. `randomAnswer` is the free answer: the statement
holds for every byte. -/
def Obligations.AndRandomMasksOneByte : Prop :=
  ∀ (x : Reg) (nn : Byte) (s : State),
    decodeWord (wordXNN 0xC x nn) = .ok (.andRandom x nn) ∧
    ∃ t, exec (.andRandom x nn) s = .next t ∧
      (∀ k, (t.reg x).getLsbD k = (s.randomAnswer.getLsbD k && nn.getLsbD k)) ∧
      t.requests = s.requests + 1 ∧ t.randomAnswers = s.randomAnswers.tail ∧ t.keyAnswers = s.keyAnswers ∧
      t.pendingAnswers = s.pendingAnswers ∧ Frame { regs := [x], requests := true } s t

/-! ### The index register and memory -/

/-- R190, R191, R192. -/
def Obligations.IndexRegisterWrites : Prop :=
  ∀ (nnn : Addr12) (x : Reg) (s : State),
    decodeWord (wordNNN 0xA nnn) = .ok (.setIndex nnn) ∧
    (∃ t, exec (.setIndex nnn) s = .next t ∧ t.i.toNat = nnn.toNat ∧ Frame { index := true } s t) ∧
    decodeWord (wordXNN 0xF x 0x1E) = .ok (.addToIndex x) ∧
    (∃ t, exec (.addToIndex x) s = .next t ∧ t.i.toNat = (s.i.toNat + (s.reg x).toNat) % 65536 ∧ Frame { index := true } s t) ∧
    decodeWord (wordXNN 0xF x 0x29) = .ok (.setIndexToFontGlyph x) ∧
    (∃ t, exec (.setIndexToFontGlyph x) s = .next t ∧ t.i.toNat = 0x050 + 5 * ((s.reg x).toNat % 16) ∧ Frame { index := true } s t)

/-- R193, R196, R57 (the range policy and the precision of the fault are the spec's own, D2, D14): three digits at I, I + 1, I + 2, or
MemoryRange with the first address out of range and nothing written. -/
def Obligations.StoreBcdWritesDigits : Prop :=
  ∀ (x : Reg) (s : State),
    decodeWord (wordXNN 0xF x 0x33) = .ok (.storeBcd x) ∧
    (s.indexInRange 3 →
      s.indexed 3 .write = .ok [s.i.toNat % 4096, (s.i.toNat + 1) % 4096, (s.i.toNat + 2) % 4096] ∧
      ∃ t, exec (.storeBcd x) s = .next t ∧
        (t.readByte (s.i.toNat % 4096)).toNat = (s.reg x).toNat / 100 ∧
        (t.readByte ((s.i.toNat + 1) % 4096)).toNat = (s.reg x).toNat / 10 % 10 ∧
        (t.readByte ((s.i.toNat + 2) % 4096)).toNat = (s.reg x).toNat % 10 ∧
        Frame { cells := cellsOf (s.indexed 3 .write) } s t) ∧
    (¬ s.indexInRange 3 →
      ∃ t, exec (.storeBcd x) s = .next t ∧ t.fault = some ⟨.memoryRange (max s.i.toNat 0x1000) .write, s.pc - 2⟩ ∧ t.slot = 0 ∧
        Frame { fault := true } s t)

/-- R194, R196, R57 (D2, D14). -/
def Obligations.DumpRegistersStoresThem : Prop :=
  ∀ (x : Reg) (s : State),
    decodeWord (wordXNN 0xF x 0x55) = .ok (.dumpRegisters x) ∧
    (s.indexInRange (x.val + 1) →
      s.indexed (x.val + 1) .write = .ok ((List.range' s.i.toNat (x.val + 1)).map (· % 4096)) ∧
      ∃ t, exec (.dumpRegisters x) s = .next t ∧
        (∀ c : Reg, c ≤ x → t.readByte ((s.i.toNat + c.val) % 4096) = s.reg c) ∧
        Frame { cells := cellsOf (s.indexed (x.val + 1) .write) } s t) ∧
    (¬ s.indexInRange (x.val + 1) →
      ∃ t, exec (.dumpRegisters x) s = .next t ∧ t.fault = some ⟨.memoryRange (max s.i.toNat 0x1000) .write, s.pc - 2⟩ ∧
        t.slot = 0 ∧ Frame { fault := true } s t)

/-- R195, R196, R57 (D2, D14). -/
def Obligations.LoadRegistersLoadsThem : Prop :=
  ∀ (x : Reg) (s : State),
    decodeWord (wordXNN 0xF x 0x65) = .ok (.loadRegisters x) ∧
    (s.indexInRange (x.val + 1) →
      ∃ t, exec (.loadRegisters x) s = .next t ∧
        (∀ c : Reg, c ≤ x → t.reg c = s.readByte ((s.i.toNat + c.val) % 4096)) ∧
        (∀ c : Reg, x < c → t.reg c = s.reg c) ∧ Frame { regs := regsUpTo x } s t) ∧
    (¬ s.indexInRange (x.val + 1) →
      ∃ t, exec (.loadRegisters x) s = .next t ∧ t.fault = some ⟨.memoryRange (max s.i.toNat 0x1000) .read, s.pc - 2⟩ ∧
        t.slot = 0 ∧ Frame { fault := true } s t)

/-- R195's round trip, E4 of 95_test_vectors.md: registers dumped and loaded again from the same I are restored, whatever the registers
hold in between. -/
def Obligations.DumpThenLoadRestores : Prop :=
  ∀ (x : Reg) (s t u : State), s.indexInRange (x.val + 1) → exec (.dumpRegisters x) s = .next t →
    u.mem = t.mem → u.cfg = t.cfg → u.i = t.i →
    ∃ r, exec (.loadRegisters x) u = .next r ∧ (∀ c : Reg, c ≤ x → r.reg c = s.reg c) ∧ Frame { regs := regsUpTo x } u r

/-! ### Display -/

/-- R211: the second nibble is ignored (R78). -/
def Obligations.ClearDisplayUnsetsEveryCell : Prop :=
  ∀ (z : Reg) (s : State),
    decodeWord (wordXNN 0x0 z 0xE0) = .ok .clearDisplay ∧
    ∃ t, exec .clearDisplay s = .next t ∧ (∀ c r, t.fb.get c r = false) ∧ Frame { display := true } s t

/-- R212, R213 (the coordinates with x = 15 or y = 15, the rows read and the range policy are the spec's own, D9, D10, D2, D14): exactly the
cells under a set bit of the sprite are toggled, clipped at the right and the bottom edge, and VF says whether one of them was set. -/
def Obligations.DrawSpriteTogglesItsCells : Prop :=
  ∀ (x y : Reg) (n : Nibble) (s : State),
    decodeWord (wordXYN 0xD x y n) = .ok (.drawSprite x y n) ∧
    (s.indexInRange (min n.toNat (32 - s.spriteCoord y)) →
      ∃ t, exec (.drawSprite x y n) s = .next t ∧
        (∀ col row, col < 64 → row < 32 → t.fb.get col row = (s.fb.get col row ^^ s.spriteCovers x y n col row)) ∧
        ((∃ col row, col < 64 ∧ row < 32 ∧ s.spriteCovers x y n col row = true ∧ s.fb.get col row = true) → t.reg 15 = 1) ∧
        ((∀ col row, col < 64 → row < 32 → s.spriteCovers x y n col row = true → s.fb.get col row = false) → t.reg 15 = 0) ∧
        Frame { regs := [15], display := true } s t)

/-- R212: a row that is not clipped and lies out of range makes draw-sprite record MemoryRange with nothing changed. The range policy,
the rows read and the precise fault are the spec's own choices D2, D10, D14 (notes/assumptions/11.md); with y = 15 the row count
rests on the coordinate being read as 0, its choice D9 (notes/assumptions/10.md); the slot count 0 is notes/assumptions/14.md. -/
def Obligations.DrawSpriteFaultsOutOfRange : Prop :=
  ∀ (x y : Reg) (n : Nibble) (s : State), ¬ s.indexInRange (min n.toNat (32 - s.spriteCoord y)) →
    ∃ t, exec (.drawSprite x y n) s = .next t ∧ t.fault = some ⟨.memoryRange (max s.i.toNat 0x1000) .read, s.pc - 2⟩ ∧
      t.slot = 0 ∧ Frame { fault := true } s t

/-- R213: drawing the same sprite twice at the same place restores the framebuffer; the second draw gives VF = 1 exactly when it turned
off a cell, one the sprite covers that was clear before the first draw (notes/assumptions/18.md on R213's shorter wording). With
x = 15 or y = 15 the second draw is at the same place by the spec's own choice D9 (notes/assumptions/10.md); that only the unclipped
rows are read and checked is its choice D10, with D2 and D14 (notes/assumptions/11.md). -/
def Obligations.DrawingTwiceRestores : Prop :=
  ∀ (x y : Reg) (n : Nibble) (s t : State), s.indexInRange (min n.toNat (32 - s.spriteCoord y)) →
    exec (.drawSprite x y n) s = .next t →
    ∃ u, exec (.drawSprite x y n) t = .next u ∧ u.fb = s.fb ∧
      (u.reg 15 = 1 ↔ ∃ col row, col < 64 ∧ row < 32 ∧ s.spriteCovers x y n col row = true ∧ s.fb.get col row = false) ∧
      Frame { regs := [15], display := true } t u

/-! ### Timers and keypad -/

/-- R233, R235, R236. -/
def Obligations.TimerMoves : Prop :=
  ∀ (x : Reg) (s : State),
    decodeWord (wordXNN 0xF x 0x07) = .ok (.getDelayTimer x) ∧
    (∃ t, exec (.getDelayTimer x) s = .next t ∧ t.reg x = s.dt ∧ Frame { regs := [x] } s t) ∧
    decodeWord (wordXNN 0xF x 0x15) = .ok (.setDelayTimer x) ∧
    (∃ t, exec (.setDelayTimer x) s = .next t ∧ t.dt = s.reg x ∧ Frame { delay := true } s t) ∧
    decodeWord (wordXNN 0xF x 0x18) = .ok (.setSoundTimer x) ∧
    (∃ t, exec (.setSoundTimer x) s = .next t ∧ t.st = s.reg x ∧ t.soundTimer = s.reg x ∧ Frame { sound := true } s t)

/-- R234 (no poll in its own slot is the spec's own choice, D11): get-key starts the wait and nothing else, V[x] and PC included. -/
def Obligations.GetKeyStartsTheWait : Prop :=
  ∀ (x : Reg) (s : State),
    decodeWord (wordXNN 0xF x 0x0A) = .ok (.getKey x) ∧
    ∃ t, exec (.getKey x) s = .next t ∧ t.wait = some x ∧ (s.fault = none → t.runState = .waiting) ∧ Frame { wait := true } s t
end

