-- ==== Sys2Proof/Laws/Decode.lean ====
section
/-! SUPPORT. The bits of an assembled word, and its fields (30_encoding.md R72, R73): what the decoder reads is what the encoder put
there. -/

namespace Sys2Proof

/-! ### The bits of an assembled word -/

theorem getLsbD_wordNNN (op : Nibble) (nnn : Addr12) (k : Nat) :
    (wordNNN op nnn).getLsbD k = if k < 12 then nnn.getLsbD k else op.getLsbD (k - 12) := by
  simp only [wordNNN, BitVec.getLsbD_cast, BitVec.getLsbD_append]

theorem getLsbD_wordXNN (op : Nibble) (x : Reg) (nn : Byte) (k : Nat) :
    (wordXNN op x nn).getLsbD k =
      if k < 8 then nn.getLsbD k else if k < 12 then (regBits x).getLsbD (k - 8) else op.getLsbD (k - 12) := by
  simp only [wordXNN, BitVec.getLsbD_cast, BitVec.getLsbD_append, show k - 8 < 4 ↔ k < 12 ∨ k < 8 by omega,
    show k - 8 - 4 = k - 12 by omega]
  by_cases h8 : k < 8
  · simp [h8]
  · by_cases h12 : k < 12 <;> simp [h8, h12]

theorem getLsbD_wordXYN (op : Nibble) (x y : Reg) (n : Nibble) (k : Nat) :
    (wordXYN op x y n).getLsbD k =
      if k < 4 then n.getLsbD k else if k < 8 then (regBits y).getLsbD (k - 4)
      else if k < 12 then (regBits x).getLsbD (k - 8) else op.getLsbD (k - 12) := by
  simp only [wordXYN, BitVec.getLsbD_cast, BitVec.getLsbD_append, show k - 4 < 4 ↔ k < 8 ∨ k < 4 by omega,
    show k - 4 - 4 = k - 8 by omega, show k - 8 < 4 ↔ k < 12 ∨ k < 8 by omega, show k - 8 - 4 = k - 12 by omega]
  by_cases h4 : k < 4
  · simp [h4]
  · by_cases h8 : k < 8
    · simp [h4, h8]
    · by_cases h12 : k < 12 <;> simp [h4, h8, h12]

theorem getLsbD_wordOfBytes (hi lo : Byte) (k : Nat) :
    (wordOfBytes hi lo).getLsbD k = if k < 8 then lo.getLsbD k else hi.getLsbD (k - 8) := by
  simp only [wordOfBytes, BitVec.getLsbD_cast, BitVec.getLsbD_append]

/-! ### Its fields -/

@[simp] theorem opField_wordNNN (op : Nibble) (nnn : Addr12) : opField (wordNNN op nnn) = op := by
  apply BitVec.eq_of_getLsbD_eq
  intro k hk
  simp [opField, getLsbD_wordNNN, hk]

@[simp] theorem nnnField_wordNNN (op : Nibble) (nnn : Addr12) : nnnField (wordNNN op nnn) = nnn := by
  apply BitVec.eq_of_getLsbD_eq
  intro k hk
  simp [nnnField, getLsbD_wordNNN, hk]

@[simp] theorem nnField_wordNNN (op : Nibble) (nnn : Addr12) : nnField (wordNNN op nnn) = nnn.extractLsb' 0 8 := by
  apply BitVec.eq_of_getLsbD_eq
  intro k hk
  simp [nnField, getLsbD_wordNNN, hk, show k < 12 by omega]

@[simp] theorem opField_wordXNN (op : Nibble) (x : Reg) (nn : Byte) : opField (wordXNN op x nn) = op := by
  apply BitVec.eq_of_getLsbD_eq
  intro k hk
  simp [opField, getLsbD_wordXNN, hk, show ¬ 12 + k < 8 by omega]

@[simp] theorem xField_wordXNN (op : Nibble) (x : Reg) (nn : Byte) : xField (wordXNN op x nn) = x := by
  have h : (wordXNN op x nn).extractLsb' 8 4 = regBits x := by
    apply BitVec.eq_of_getLsbD_eq
    intro k hk
    simp [getLsbD_wordXNN, hk, show 8 + k < 12 by omega]
  simp [xField, h, regBits]

@[simp] theorem nnField_wordXNN (op : Nibble) (x : Reg) (nn : Byte) : nnField (wordXNN op x nn) = nn := by
  apply BitVec.eq_of_getLsbD_eq
  intro k hk
  simp [nnField, getLsbD_wordXNN, hk]

@[simp] theorem opField_wordXYN (op : Nibble) (x y : Reg) (n : Nibble) : opField (wordXYN op x y n) = op := by
  apply BitVec.eq_of_getLsbD_eq
  intro k hk
  simp [opField, getLsbD_wordXYN, hk, show ¬ 12 + k < 4 by omega, show ¬ 12 + k < 8 by omega]

@[simp] theorem xField_wordXYN (op : Nibble) (x y : Reg) (n : Nibble) : xField (wordXYN op x y n) = x := by
  have h : (wordXYN op x y n).extractLsb' 8 4 = regBits x := by
    apply BitVec.eq_of_getLsbD_eq
    intro k hk
    simp [getLsbD_wordXYN, hk, show ¬ 8 + k < 4 by omega, show 8 + k < 12 by omega]
  simp [xField, h, regBits]

@[simp] theorem yField_wordXYN (op : Nibble) (x y : Reg) (n : Nibble) : yField (wordXYN op x y n) = y := by
  have h : (wordXYN op x y n).extractLsb' 4 4 = regBits y := by
    apply BitVec.eq_of_getLsbD_eq
    intro k hk
    simp [getLsbD_wordXYN, hk, show 4 + k < 8 by omega]
  simp [yField, h, regBits]

@[simp] theorem nField_wordXYN (op : Nibble) (x y : Reg) (n : Nibble) : nField (wordXYN op x y n) = n := by
  apply BitVec.eq_of_getLsbD_eq
  intro k hk
  simp [nField, getLsbD_wordXYN, hk]

/-- R71: `w = M[a0] * 256 + M[a1]`. -/
theorem toNat_wordOfBytes (hi lo : Byte) : (wordOfBytes hi lo).toNat = hi.toNat * 256 + lo.toNat := by
  have h : lo.toNat < 2 ^ 8 := lo.isLt
  simp only [wordOfBytes, BitVec.toNat_cast, BitVec.toNat_append]
  rw [← Nat.shiftLeft_add_eq_or_of_lt h, Nat.shiftLeft_eq]

/-- The bytes of a word in memory order make the word again (R71). -/
@[simp] theorem wordOfBytes_bytesOfWord (w : Word) : wordOfBytes (w.extractLsb' 8 8) (w.extractLsb' 0 8) = w := by
  apply BitVec.eq_of_getLsbD_eq
  intro k hk
  rw [getLsbD_wordOfBytes]
  by_cases h : k < 8
  · simp [h]
  · simp [h, show k - 8 < 8 by omega, show 8 + (k - 8) = k by omega]

theorem decode_bytesOfWord (w : Word) (rest : List Byte) :
    decode (bytesOfWord w ++ rest) = match decodeWord w with
      | .ok i => .ok (i, rest)
      | .error e => .error e := by
  rcases h : decodeWord w with e | i <;> simp [bytesOfWord, decode, h]

end Sys2Proof
end

