-- ==== Sys2Proof/Laws/State.lean ====
section
/-! SUPPORT. The small lemmas of the state's updates: one per field per update, and what each update leaves of a register read
and of a memory read, so that no later proof unfolds a record update. -/

namespace Sys2Proof.Machine

@[simp] theorem State.setReg_cfg (s : State) (x : Reg) (b : Byte) : (s.setReg x b).cfg = s.cfg := rfl
@[simp] theorem State.setReg_v (s : State) (x : Reg) (b : Byte) : (s.setReg x b).v = s.v.set x.val b := rfl
@[simp] theorem State.setReg_pc (s : State) (x : Reg) (b : Byte) : (s.setReg x b).pc = s.pc := rfl
@[simp] theorem State.setReg_i (s : State) (x : Reg) (b : Byte) : (s.setReg x b).i = s.i := rfl
@[simp] theorem State.setReg_dt (s : State) (x : Reg) (b : Byte) : (s.setReg x b).dt = s.dt := rfl
@[simp] theorem State.setReg_st (s : State) (x : Reg) (b : Byte) : (s.setReg x b).st = s.st := rfl
@[simp] theorem State.setReg_stack (s : State) (x : Reg) (b : Byte) : (s.setReg x b).stack = s.stack := rfl
@[simp] theorem State.setReg_wait (s : State) (x : Reg) (b : Byte) : (s.setReg x b).wait = s.wait := rfl
@[simp] theorem State.setReg_fault (s : State) (x : Reg) (b : Byte) : (s.setReg x b).fault = s.fault := rfl
@[simp] theorem State.setReg_mem (s : State) (x : Reg) (b : Byte) : (s.setReg x b).mem = s.mem := rfl
@[simp] theorem State.setReg_fb (s : State) (x : Reg) (b : Byte) : (s.setReg x b).fb = s.fb := rfl
@[simp] theorem State.setReg_slot (s : State) (x : Reg) (b : Byte) : (s.setReg x b).slot = s.slot := rfl
@[simp] theorem State.setReg_requests (s : State) (x : Reg) (b : Byte) : (s.setReg x b).requests = s.requests := rfl
@[simp] theorem State.setReg_keyAnswers (s : State) (x : Reg) (b : Byte) : (s.setReg x b).keyAnswers = s.keyAnswers := rfl
@[simp] theorem State.setReg_pendingAnswers (s : State) (x : Reg) (b : Byte) : (s.setReg x b).pendingAnswers = s.pendingAnswers := rfl
@[simp] theorem State.setReg_randomAnswers (s : State) (x : Reg) (b : Byte) : (s.setReg x b).randomAnswers = s.randomAnswers := rfl
@[simp] theorem State.setReg_readByte (s : State) (x : Reg) (b : Byte) (k : Nat) : (s.setReg x b).readByte k = s.readByte k := rfl

@[simp] theorem State.setPc_cfg (s : State) (a : Word) : (s.setPc a).cfg = s.cfg := rfl
@[simp] theorem State.setPc_v (s : State) (a : Word) : (s.setPc a).v = s.v := rfl
@[simp] theorem State.setPc_pc (s : State) (a : Word) : (s.setPc a).pc = a := rfl
@[simp] theorem State.setPc_i (s : State) (a : Word) : (s.setPc a).i = s.i := rfl
@[simp] theorem State.setPc_dt (s : State) (a : Word) : (s.setPc a).dt = s.dt := rfl
@[simp] theorem State.setPc_st (s : State) (a : Word) : (s.setPc a).st = s.st := rfl
@[simp] theorem State.setPc_stack (s : State) (a : Word) : (s.setPc a).stack = s.stack := rfl
@[simp] theorem State.setPc_wait (s : State) (a : Word) : (s.setPc a).wait = s.wait := rfl
@[simp] theorem State.setPc_fault (s : State) (a : Word) : (s.setPc a).fault = s.fault := rfl
@[simp] theorem State.setPc_mem (s : State) (a : Word) : (s.setPc a).mem = s.mem := rfl
@[simp] theorem State.setPc_fb (s : State) (a : Word) : (s.setPc a).fb = s.fb := rfl
@[simp] theorem State.setPc_slot (s : State) (a : Word) : (s.setPc a).slot = s.slot := rfl
@[simp] theorem State.setPc_requests (s : State) (a : Word) : (s.setPc a).requests = s.requests := rfl
@[simp] theorem State.setPc_keyAnswers (s : State) (a : Word) : (s.setPc a).keyAnswers = s.keyAnswers := rfl
@[simp] theorem State.setPc_pendingAnswers (s : State) (a : Word) : (s.setPc a).pendingAnswers = s.pendingAnswers := rfl
@[simp] theorem State.setPc_randomAnswers (s : State) (a : Word) : (s.setPc a).randomAnswers = s.randomAnswers := rfl
@[simp] theorem State.setPc_reg (s : State) (a : Word) (j : Reg) : (s.setPc a).reg j = s.reg j := rfl
@[simp] theorem State.setPc_readByte (s : State) (a : Word) (k : Nat) : (s.setPc a).readByte k = s.readByte k := rfl

@[simp] theorem State.setIndex_cfg (s : State) (a : Word) : (s.setIndex a).cfg = s.cfg := rfl
@[simp] theorem State.setIndex_v (s : State) (a : Word) : (s.setIndex a).v = s.v := rfl
@[simp] theorem State.setIndex_pc (s : State) (a : Word) : (s.setIndex a).pc = s.pc := rfl
@[simp] theorem State.setIndex_i (s : State) (a : Word) : (s.setIndex a).i = a := rfl
@[simp] theorem State.setIndex_dt (s : State) (a : Word) : (s.setIndex a).dt = s.dt := rfl
@[simp] theorem State.setIndex_st (s : State) (a : Word) : (s.setIndex a).st = s.st := rfl
@[simp] theorem State.setIndex_stack (s : State) (a : Word) : (s.setIndex a).stack = s.stack := rfl
@[simp] theorem State.setIndex_wait (s : State) (a : Word) : (s.setIndex a).wait = s.wait := rfl
@[simp] theorem State.setIndex_fault (s : State) (a : Word) : (s.setIndex a).fault = s.fault := rfl
@[simp] theorem State.setIndex_mem (s : State) (a : Word) : (s.setIndex a).mem = s.mem := rfl
@[simp] theorem State.setIndex_fb (s : State) (a : Word) : (s.setIndex a).fb = s.fb := rfl
@[simp] theorem State.setIndex_slot (s : State) (a : Word) : (s.setIndex a).slot = s.slot := rfl
@[simp] theorem State.setIndex_requests (s : State) (a : Word) : (s.setIndex a).requests = s.requests := rfl
@[simp] theorem State.setIndex_keyAnswers (s : State) (a : Word) : (s.setIndex a).keyAnswers = s.keyAnswers := rfl
@[simp] theorem State.setIndex_pendingAnswers (s : State) (a : Word) : (s.setIndex a).pendingAnswers = s.pendingAnswers := rfl
@[simp] theorem State.setIndex_randomAnswers (s : State) (a : Word) : (s.setIndex a).randomAnswers = s.randomAnswers := rfl
@[simp] theorem State.setIndex_reg (s : State) (a : Word) (j : Reg) : (s.setIndex a).reg j = s.reg j := rfl
@[simp] theorem State.setIndex_readByte (s : State) (a : Word) (k : Nat) : (s.setIndex a).readByte k = s.readByte k := rfl

@[simp] theorem State.setDelay_cfg (s : State) (b : Byte) : (s.setDelay b).cfg = s.cfg := rfl
@[simp] theorem State.setDelay_v (s : State) (b : Byte) : (s.setDelay b).v = s.v := rfl
@[simp] theorem State.setDelay_pc (s : State) (b : Byte) : (s.setDelay b).pc = s.pc := rfl
@[simp] theorem State.setDelay_i (s : State) (b : Byte) : (s.setDelay b).i = s.i := rfl
@[simp] theorem State.setDelay_dt (s : State) (b : Byte) : (s.setDelay b).dt = b := rfl
@[simp] theorem State.setDelay_st (s : State) (b : Byte) : (s.setDelay b).st = s.st := rfl
@[simp] theorem State.setDelay_stack (s : State) (b : Byte) : (s.setDelay b).stack = s.stack := rfl
@[simp] theorem State.setDelay_wait (s : State) (b : Byte) : (s.setDelay b).wait = s.wait := rfl
@[simp] theorem State.setDelay_fault (s : State) (b : Byte) : (s.setDelay b).fault = s.fault := rfl
@[simp] theorem State.setDelay_mem (s : State) (b : Byte) : (s.setDelay b).mem = s.mem := rfl
@[simp] theorem State.setDelay_fb (s : State) (b : Byte) : (s.setDelay b).fb = s.fb := rfl
@[simp] theorem State.setDelay_slot (s : State) (b : Byte) : (s.setDelay b).slot = s.slot := rfl
@[simp] theorem State.setDelay_requests (s : State) (b : Byte) : (s.setDelay b).requests = s.requests := rfl
@[simp] theorem State.setDelay_keyAnswers (s : State) (b : Byte) : (s.setDelay b).keyAnswers = s.keyAnswers := rfl
@[simp] theorem State.setDelay_pendingAnswers (s : State) (b : Byte) : (s.setDelay b).pendingAnswers = s.pendingAnswers := rfl
@[simp] theorem State.setDelay_randomAnswers (s : State) (b : Byte) : (s.setDelay b).randomAnswers = s.randomAnswers := rfl
@[simp] theorem State.setDelay_reg (s : State) (b : Byte) (j : Reg) : (s.setDelay b).reg j = s.reg j := rfl
@[simp] theorem State.setDelay_readByte (s : State) (b : Byte) (k : Nat) : (s.setDelay b).readByte k = s.readByte k := rfl

@[simp] theorem State.setSound_cfg (s : State) (b : Byte) : (s.setSound b).cfg = s.cfg := rfl
@[simp] theorem State.setSound_v (s : State) (b : Byte) : (s.setSound b).v = s.v := rfl
@[simp] theorem State.setSound_pc (s : State) (b : Byte) : (s.setSound b).pc = s.pc := rfl
@[simp] theorem State.setSound_i (s : State) (b : Byte) : (s.setSound b).i = s.i := rfl
@[simp] theorem State.setSound_dt (s : State) (b : Byte) : (s.setSound b).dt = s.dt := rfl
@[simp] theorem State.setSound_st (s : State) (b : Byte) : (s.setSound b).st = b := rfl
@[simp] theorem State.setSound_stack (s : State) (b : Byte) : (s.setSound b).stack = s.stack := rfl
@[simp] theorem State.setSound_wait (s : State) (b : Byte) : (s.setSound b).wait = s.wait := rfl
@[simp] theorem State.setSound_fault (s : State) (b : Byte) : (s.setSound b).fault = s.fault := rfl
@[simp] theorem State.setSound_mem (s : State) (b : Byte) : (s.setSound b).mem = s.mem := rfl
@[simp] theorem State.setSound_fb (s : State) (b : Byte) : (s.setSound b).fb = s.fb := rfl
@[simp] theorem State.setSound_slot (s : State) (b : Byte) : (s.setSound b).slot = s.slot := rfl
@[simp] theorem State.setSound_requests (s : State) (b : Byte) : (s.setSound b).requests = s.requests := rfl
@[simp] theorem State.setSound_keyAnswers (s : State) (b : Byte) : (s.setSound b).keyAnswers = s.keyAnswers := rfl
@[simp] theorem State.setSound_pendingAnswers (s : State) (b : Byte) : (s.setSound b).pendingAnswers = s.pendingAnswers := rfl
@[simp] theorem State.setSound_randomAnswers (s : State) (b : Byte) : (s.setSound b).randomAnswers = s.randomAnswers := rfl
@[simp] theorem State.setSound_reg (s : State) (b : Byte) (j : Reg) : (s.setSound b).reg j = s.reg j := rfl
@[simp] theorem State.setSound_readByte (s : State) (b : Byte) (k : Nat) : (s.setSound b).readByte k = s.readByte k := rfl

@[simp] theorem State.setWait_cfg (s : State) (w : Option Reg) : (s.setWait w).cfg = s.cfg := rfl
@[simp] theorem State.setWait_v (s : State) (w : Option Reg) : (s.setWait w).v = s.v := rfl
@[simp] theorem State.setWait_pc (s : State) (w : Option Reg) : (s.setWait w).pc = s.pc := rfl
@[simp] theorem State.setWait_i (s : State) (w : Option Reg) : (s.setWait w).i = s.i := rfl
@[simp] theorem State.setWait_dt (s : State) (w : Option Reg) : (s.setWait w).dt = s.dt := rfl
@[simp] theorem State.setWait_st (s : State) (w : Option Reg) : (s.setWait w).st = s.st := rfl
@[simp] theorem State.setWait_stack (s : State) (w : Option Reg) : (s.setWait w).stack = s.stack := rfl
@[simp] theorem State.setWait_wait (s : State) (w : Option Reg) : (s.setWait w).wait = w := rfl
@[simp] theorem State.setWait_fault (s : State) (w : Option Reg) : (s.setWait w).fault = s.fault := rfl
@[simp] theorem State.setWait_mem (s : State) (w : Option Reg) : (s.setWait w).mem = s.mem := rfl
@[simp] theorem State.setWait_fb (s : State) (w : Option Reg) : (s.setWait w).fb = s.fb := rfl
@[simp] theorem State.setWait_slot (s : State) (w : Option Reg) : (s.setWait w).slot = s.slot := rfl
@[simp] theorem State.setWait_requests (s : State) (w : Option Reg) : (s.setWait w).requests = s.requests := rfl
@[simp] theorem State.setWait_keyAnswers (s : State) (w : Option Reg) : (s.setWait w).keyAnswers = s.keyAnswers := rfl
@[simp] theorem State.setWait_pendingAnswers (s : State) (w : Option Reg) : (s.setWait w).pendingAnswers = s.pendingAnswers := rfl
@[simp] theorem State.setWait_randomAnswers (s : State) (w : Option Reg) : (s.setWait w).randomAnswers = s.randomAnswers := rfl
@[simp] theorem State.setWait_reg (s : State) (w : Option Reg) (j : Reg) : (s.setWait w).reg j = s.reg j := rfl
@[simp] theorem State.setWait_readByte (s : State) (w : Option Reg) (k : Nat) : (s.setWait w).readByte k = s.readByte k := rfl

@[simp] theorem State.advancePc_cfg (s : State) : (s.advancePc).cfg = s.cfg := rfl
@[simp] theorem State.advancePc_v (s : State) : (s.advancePc).v = s.v := rfl
@[simp] theorem State.advancePc_pc (s : State) : (s.advancePc).pc = s.pc + 2 := rfl
@[simp] theorem State.advancePc_i (s : State) : (s.advancePc).i = s.i := rfl
@[simp] theorem State.advancePc_dt (s : State) : (s.advancePc).dt = s.dt := rfl
@[simp] theorem State.advancePc_st (s : State) : (s.advancePc).st = s.st := rfl
@[simp] theorem State.advancePc_stack (s : State) : (s.advancePc).stack = s.stack := rfl
@[simp] theorem State.advancePc_wait (s : State) : (s.advancePc).wait = s.wait := rfl
@[simp] theorem State.advancePc_fault (s : State) : (s.advancePc).fault = s.fault := rfl
@[simp] theorem State.advancePc_mem (s : State) : (s.advancePc).mem = s.mem := rfl
@[simp] theorem State.advancePc_fb (s : State) : (s.advancePc).fb = s.fb := rfl
@[simp] theorem State.advancePc_slot (s : State) : (s.advancePc).slot = s.slot := rfl
@[simp] theorem State.advancePc_requests (s : State) : (s.advancePc).requests = s.requests := rfl
@[simp] theorem State.advancePc_keyAnswers (s : State) : (s.advancePc).keyAnswers = s.keyAnswers := rfl
@[simp] theorem State.advancePc_pendingAnswers (s : State) : (s.advancePc).pendingAnswers = s.pendingAnswers := rfl
@[simp] theorem State.advancePc_randomAnswers (s : State) : (s.advancePc).randomAnswers = s.randomAnswers := rfl
@[simp] theorem State.advancePc_reg (s : State) (j : Reg) : (s.advancePc).reg j = s.reg j := rfl
@[simp] theorem State.advancePc_readByte (s : State) (k : Nat) : (s.advancePc).readByte k = s.readByte k := rfl

@[simp] theorem State.push_cfg (s : State) (a : Word) : (s.push a).cfg = s.cfg := rfl
@[simp] theorem State.push_v (s : State) (a : Word) : (s.push a).v = s.v := rfl
@[simp] theorem State.push_pc (s : State) (a : Word) : (s.push a).pc = s.pc := rfl
@[simp] theorem State.push_i (s : State) (a : Word) : (s.push a).i = s.i := rfl
@[simp] theorem State.push_dt (s : State) (a : Word) : (s.push a).dt = s.dt := rfl
@[simp] theorem State.push_st (s : State) (a : Word) : (s.push a).st = s.st := rfl
@[simp] theorem State.push_stack (s : State) (a : Word) : (s.push a).stack = s.stack ++ [a] := rfl
@[simp] theorem State.push_wait (s : State) (a : Word) : (s.push a).wait = s.wait := rfl
@[simp] theorem State.push_fault (s : State) (a : Word) : (s.push a).fault = s.fault := rfl
@[simp] theorem State.push_mem (s : State) (a : Word) : (s.push a).mem = s.mem := rfl
@[simp] theorem State.push_fb (s : State) (a : Word) : (s.push a).fb = s.fb := rfl
@[simp] theorem State.push_slot (s : State) (a : Word) : (s.push a).slot = s.slot := rfl
@[simp] theorem State.push_requests (s : State) (a : Word) : (s.push a).requests = s.requests := rfl
@[simp] theorem State.push_keyAnswers (s : State) (a : Word) : (s.push a).keyAnswers = s.keyAnswers := rfl
@[simp] theorem State.push_pendingAnswers (s : State) (a : Word) : (s.push a).pendingAnswers = s.pendingAnswers := rfl
@[simp] theorem State.push_randomAnswers (s : State) (a : Word) : (s.push a).randomAnswers = s.randomAnswers := rfl
@[simp] theorem State.push_reg (s : State) (a : Word) (j : Reg) : (s.push a).reg j = s.reg j := rfl
@[simp] theorem State.push_readByte (s : State) (a : Word) (k : Nat) : (s.push a).readByte k = s.readByte k := rfl

@[simp] theorem State.dropTop_cfg (s : State) : (s.dropTop).cfg = s.cfg := rfl
@[simp] theorem State.dropTop_v (s : State) : (s.dropTop).v = s.v := rfl
@[simp] theorem State.dropTop_pc (s : State) : (s.dropTop).pc = s.pc := rfl
@[simp] theorem State.dropTop_i (s : State) : (s.dropTop).i = s.i := rfl
@[simp] theorem State.dropTop_dt (s : State) : (s.dropTop).dt = s.dt := rfl
@[simp] theorem State.dropTop_st (s : State) : (s.dropTop).st = s.st := rfl
@[simp] theorem State.dropTop_stack (s : State) : (s.dropTop).stack = s.stack.dropLast := rfl
@[simp] theorem State.dropTop_wait (s : State) : (s.dropTop).wait = s.wait := rfl
@[simp] theorem State.dropTop_fault (s : State) : (s.dropTop).fault = s.fault := rfl
@[simp] theorem State.dropTop_mem (s : State) : (s.dropTop).mem = s.mem := rfl
@[simp] theorem State.dropTop_fb (s : State) : (s.dropTop).fb = s.fb := rfl
@[simp] theorem State.dropTop_slot (s : State) : (s.dropTop).slot = s.slot := rfl
@[simp] theorem State.dropTop_requests (s : State) : (s.dropTop).requests = s.requests := rfl
@[simp] theorem State.dropTop_keyAnswers (s : State) : (s.dropTop).keyAnswers = s.keyAnswers := rfl
@[simp] theorem State.dropTop_pendingAnswers (s : State) : (s.dropTop).pendingAnswers = s.pendingAnswers := rfl
@[simp] theorem State.dropTop_randomAnswers (s : State) : (s.dropTop).randomAnswers = s.randomAnswers := rfl
@[simp] theorem State.dropTop_reg (s : State) (j : Reg) : (s.dropTop).reg j = s.reg j := rfl
@[simp] theorem State.dropTop_readByte (s : State) (k : Nat) : (s.dropTop).readByte k = s.readByte k := rfl

@[simp] theorem State.writeByte_cfg (s : State) (a : Nat) (b : Byte) : (s.writeByte a b).cfg = s.cfg := rfl
@[simp] theorem State.writeByte_v (s : State) (a : Nat) (b : Byte) : (s.writeByte a b).v = s.v := rfl
@[simp] theorem State.writeByte_pc (s : State) (a : Nat) (b : Byte) : (s.writeByte a b).pc = s.pc := rfl
@[simp] theorem State.writeByte_i (s : State) (a : Nat) (b : Byte) : (s.writeByte a b).i = s.i := rfl
@[simp] theorem State.writeByte_dt (s : State) (a : Nat) (b : Byte) : (s.writeByte a b).dt = s.dt := rfl
@[simp] theorem State.writeByte_st (s : State) (a : Nat) (b : Byte) : (s.writeByte a b).st = s.st := rfl
@[simp] theorem State.writeByte_stack (s : State) (a : Nat) (b : Byte) : (s.writeByte a b).stack = s.stack := rfl
@[simp] theorem State.writeByte_wait (s : State) (a : Nat) (b : Byte) : (s.writeByte a b).wait = s.wait := rfl
@[simp] theorem State.writeByte_fault (s : State) (a : Nat) (b : Byte) : (s.writeByte a b).fault = s.fault := rfl
@[simp] theorem State.writeByte_mem (s : State) (a : Nat) (b : Byte) : (s.writeByte a b).mem = Memory.write s.cfg.font s.mem a b := rfl
@[simp] theorem State.writeByte_fb (s : State) (a : Nat) (b : Byte) : (s.writeByte a b).fb = s.fb := rfl
@[simp] theorem State.writeByte_slot (s : State) (a : Nat) (b : Byte) : (s.writeByte a b).slot = s.slot := rfl
@[simp] theorem State.writeByte_requests (s : State) (a : Nat) (b : Byte) : (s.writeByte a b).requests = s.requests := rfl
@[simp] theorem State.writeByte_keyAnswers (s : State) (a : Nat) (b : Byte) : (s.writeByte a b).keyAnswers = s.keyAnswers := rfl
@[simp] theorem State.writeByte_pendingAnswers (s : State) (a : Nat) (b : Byte) : (s.writeByte a b).pendingAnswers = s.pendingAnswers := rfl
@[simp] theorem State.writeByte_randomAnswers (s : State) (a : Nat) (b : Byte) : (s.writeByte a b).randomAnswers = s.randomAnswers := rfl
@[simp] theorem State.writeByte_reg (s : State) (a : Nat) (b : Byte) (j : Reg) : (s.writeByte a b).reg j = s.reg j := rfl

@[simp] theorem State.raise_cfg (s : State) (c : Cause) (p : Word) : (s.raise c p).cfg = s.cfg := rfl
@[simp] theorem State.raise_v (s : State) (c : Cause) (p : Word) : (s.raise c p).v = s.v := rfl
@[simp] theorem State.raise_pc (s : State) (c : Cause) (p : Word) : (s.raise c p).pc = s.pc := rfl
@[simp] theorem State.raise_i (s : State) (c : Cause) (p : Word) : (s.raise c p).i = s.i := rfl
@[simp] theorem State.raise_dt (s : State) (c : Cause) (p : Word) : (s.raise c p).dt = s.dt := rfl
@[simp] theorem State.raise_st (s : State) (c : Cause) (p : Word) : (s.raise c p).st = s.st := rfl
@[simp] theorem State.raise_stack (s : State) (c : Cause) (p : Word) : (s.raise c p).stack = s.stack := rfl
@[simp] theorem State.raise_wait (s : State) (c : Cause) (p : Word) : (s.raise c p).wait = s.wait := rfl
@[simp] theorem State.raise_fault (s : State) (c : Cause) (p : Word) : (s.raise c p).fault = some ⟨c, p⟩ := rfl
@[simp] theorem State.raise_mem (s : State) (c : Cause) (p : Word) : (s.raise c p).mem = s.mem := rfl
@[simp] theorem State.raise_fb (s : State) (c : Cause) (p : Word) : (s.raise c p).fb = s.fb := rfl
@[simp] theorem State.raise_slot (s : State) (c : Cause) (p : Word) : (s.raise c p).slot = 0 := rfl
@[simp] theorem State.raise_requests (s : State) (c : Cause) (p : Word) : (s.raise c p).requests = s.requests := rfl
@[simp] theorem State.raise_keyAnswers (s : State) (c : Cause) (p : Word) : (s.raise c p).keyAnswers = s.keyAnswers := rfl
@[simp] theorem State.raise_pendingAnswers (s : State) (c : Cause) (p : Word) : (s.raise c p).pendingAnswers = s.pendingAnswers := rfl
@[simp] theorem State.raise_randomAnswers (s : State) (c : Cause) (p : Word) : (s.raise c p).randomAnswers = s.randomAnswers := rfl
@[simp] theorem State.raise_reg (s : State) (c : Cause) (p : Word) (j : Reg) : (s.raise c p).reg j = s.reg j := rfl
@[simp] theorem State.raise_readByte (s : State) (c : Cause) (p : Word) (k : Nat) : (s.raise c p).readByte k = s.readByte k := rfl

@[simp] theorem State.raiseInExecute_cfg (s : State) (c : Cause) : (s.raiseInExecute c).cfg = s.cfg := rfl
@[simp] theorem State.raiseInExecute_v (s : State) (c : Cause) : (s.raiseInExecute c).v = s.v := rfl
@[simp] theorem State.raiseInExecute_pc (s : State) (c : Cause) : (s.raiseInExecute c).pc = s.pc := rfl
@[simp] theorem State.raiseInExecute_i (s : State) (c : Cause) : (s.raiseInExecute c).i = s.i := rfl
@[simp] theorem State.raiseInExecute_dt (s : State) (c : Cause) : (s.raiseInExecute c).dt = s.dt := rfl
@[simp] theorem State.raiseInExecute_st (s : State) (c : Cause) : (s.raiseInExecute c).st = s.st := rfl
@[simp] theorem State.raiseInExecute_stack (s : State) (c : Cause) : (s.raiseInExecute c).stack = s.stack := rfl
@[simp] theorem State.raiseInExecute_wait (s : State) (c : Cause) : (s.raiseInExecute c).wait = s.wait := rfl
@[simp] theorem State.raiseInExecute_fault (s : State) (c : Cause) : (s.raiseInExecute c).fault = some ⟨c, s.pc - 2⟩ := rfl
@[simp] theorem State.raiseInExecute_mem (s : State) (c : Cause) : (s.raiseInExecute c).mem = s.mem := rfl
@[simp] theorem State.raiseInExecute_fb (s : State) (c : Cause) : (s.raiseInExecute c).fb = s.fb := rfl
@[simp] theorem State.raiseInExecute_slot (s : State) (c : Cause) : (s.raiseInExecute c).slot = 0 := rfl
@[simp] theorem State.raiseInExecute_requests (s : State) (c : Cause) : (s.raiseInExecute c).requests = s.requests := rfl
@[simp] theorem State.raiseInExecute_keyAnswers (s : State) (c : Cause) : (s.raiseInExecute c).keyAnswers = s.keyAnswers := rfl
@[simp] theorem State.raiseInExecute_pendingAnswers (s : State) (c : Cause) : (s.raiseInExecute c).pendingAnswers = s.pendingAnswers := rfl
@[simp] theorem State.raiseInExecute_randomAnswers (s : State) (c : Cause) : (s.raiseInExecute c).randomAnswers = s.randomAnswers := rfl
@[simp] theorem State.raiseInExecute_reg (s : State) (c : Cause) (j : Reg) : (s.raiseInExecute c).reg j = s.reg j := rfl
@[simp] theorem State.raiseInExecute_readByte (s : State) (c : Cause) (k : Nat) : (s.raiseInExecute c).readByte k = s.readByte k := rfl

@[simp] theorem State.afterRandom_cfg (s : State) : (s.afterRandom).cfg = s.cfg := rfl
@[simp] theorem State.afterRandom_v (s : State) : (s.afterRandom).v = s.v := rfl
@[simp] theorem State.afterRandom_pc (s : State) : (s.afterRandom).pc = s.pc := rfl
@[simp] theorem State.afterRandom_i (s : State) : (s.afterRandom).i = s.i := rfl
@[simp] theorem State.afterRandom_dt (s : State) : (s.afterRandom).dt = s.dt := rfl
@[simp] theorem State.afterRandom_st (s : State) : (s.afterRandom).st = s.st := rfl
@[simp] theorem State.afterRandom_stack (s : State) : (s.afterRandom).stack = s.stack := rfl
@[simp] theorem State.afterRandom_wait (s : State) : (s.afterRandom).wait = s.wait := rfl
@[simp] theorem State.afterRandom_fault (s : State) : (s.afterRandom).fault = s.fault := rfl
@[simp] theorem State.afterRandom_mem (s : State) : (s.afterRandom).mem = s.mem := rfl
@[simp] theorem State.afterRandom_fb (s : State) : (s.afterRandom).fb = s.fb := rfl
@[simp] theorem State.afterRandom_slot (s : State) : (s.afterRandom).slot = s.slot := rfl
@[simp] theorem State.afterRandom_requests (s : State) : (s.afterRandom).requests = s.requests + 1 := rfl
@[simp] theorem State.afterRandom_keyAnswers (s : State) : (s.afterRandom).keyAnswers = s.keyAnswers := rfl
@[simp] theorem State.afterRandom_pendingAnswers (s : State) : (s.afterRandom).pendingAnswers = s.pendingAnswers := rfl
@[simp] theorem State.afterRandom_randomAnswers (s : State) : (s.afterRandom).randomAnswers = s.randomAnswers.tail := rfl
@[simp] theorem State.afterRandom_reg (s : State) (j : Reg) : (s.afterRandom).reg j = s.reg j := rfl
@[simp] theorem State.afterRandom_readByte (s : State) (k : Nat) : (s.afterRandom).readByte k = s.readByte k := rfl

@[simp] theorem State.afterKeyQuery_cfg (s : State) : (s.afterKeyQuery).cfg = s.cfg := rfl
@[simp] theorem State.afterKeyQuery_v (s : State) : (s.afterKeyQuery).v = s.v := rfl
@[simp] theorem State.afterKeyQuery_pc (s : State) : (s.afterKeyQuery).pc = s.pc := rfl
@[simp] theorem State.afterKeyQuery_i (s : State) : (s.afterKeyQuery).i = s.i := rfl
@[simp] theorem State.afterKeyQuery_dt (s : State) : (s.afterKeyQuery).dt = s.dt := rfl
@[simp] theorem State.afterKeyQuery_st (s : State) : (s.afterKeyQuery).st = s.st := rfl
@[simp] theorem State.afterKeyQuery_stack (s : State) : (s.afterKeyQuery).stack = s.stack := rfl
@[simp] theorem State.afterKeyQuery_wait (s : State) : (s.afterKeyQuery).wait = s.wait := rfl
@[simp] theorem State.afterKeyQuery_fault (s : State) : (s.afterKeyQuery).fault = s.fault := rfl
@[simp] theorem State.afterKeyQuery_mem (s : State) : (s.afterKeyQuery).mem = s.mem := rfl
@[simp] theorem State.afterKeyQuery_fb (s : State) : (s.afterKeyQuery).fb = s.fb := rfl
@[simp] theorem State.afterKeyQuery_slot (s : State) : (s.afterKeyQuery).slot = s.slot := rfl
@[simp] theorem State.afterKeyQuery_requests (s : State) : (s.afterKeyQuery).requests = s.requests + 1 := rfl
@[simp] theorem State.afterKeyQuery_keyAnswers (s : State) : (s.afterKeyQuery).keyAnswers = s.keyAnswers.tail := rfl
@[simp] theorem State.afterKeyQuery_pendingAnswers (s : State) : (s.afterKeyQuery).pendingAnswers = s.pendingAnswers := rfl
@[simp] theorem State.afterKeyQuery_randomAnswers (s : State) : (s.afterKeyQuery).randomAnswers = s.randomAnswers := rfl
@[simp] theorem State.afterKeyQuery_reg (s : State) (j : Reg) : (s.afterKeyQuery).reg j = s.reg j := rfl
@[simp] theorem State.afterKeyQuery_readByte (s : State) (k : Nat) : (s.afterKeyQuery).readByte k = s.readByte k := rfl

@[simp] theorem State.afterPendingQuery_cfg (s : State) : (s.afterPendingQuery).cfg = s.cfg := rfl
@[simp] theorem State.afterPendingQuery_v (s : State) : (s.afterPendingQuery).v = s.v := rfl
@[simp] theorem State.afterPendingQuery_pc (s : State) : (s.afterPendingQuery).pc = s.pc := rfl
@[simp] theorem State.afterPendingQuery_i (s : State) : (s.afterPendingQuery).i = s.i := rfl
@[simp] theorem State.afterPendingQuery_dt (s : State) : (s.afterPendingQuery).dt = s.dt := rfl
@[simp] theorem State.afterPendingQuery_st (s : State) : (s.afterPendingQuery).st = s.st := rfl
@[simp] theorem State.afterPendingQuery_stack (s : State) : (s.afterPendingQuery).stack = s.stack := rfl
@[simp] theorem State.afterPendingQuery_wait (s : State) : (s.afterPendingQuery).wait = s.wait := rfl
@[simp] theorem State.afterPendingQuery_fault (s : State) : (s.afterPendingQuery).fault = s.fault := rfl
@[simp] theorem State.afterPendingQuery_mem (s : State) : (s.afterPendingQuery).mem = s.mem := rfl
@[simp] theorem State.afterPendingQuery_fb (s : State) : (s.afterPendingQuery).fb = s.fb := rfl
@[simp] theorem State.afterPendingQuery_slot (s : State) : (s.afterPendingQuery).slot = s.slot := rfl
@[simp] theorem State.afterPendingQuery_requests (s : State) : (s.afterPendingQuery).requests = s.requests + 1 := rfl
@[simp] theorem State.afterPendingQuery_keyAnswers (s : State) : (s.afterPendingQuery).keyAnswers = s.keyAnswers := rfl
@[simp] theorem State.afterPendingQuery_pendingAnswers (s : State) : (s.afterPendingQuery).pendingAnswers = s.pendingAnswers.tail := rfl
@[simp] theorem State.afterPendingQuery_randomAnswers (s : State) : (s.afterPendingQuery).randomAnswers = s.randomAnswers := rfl
@[simp] theorem State.afterPendingQuery_reg (s : State) (j : Reg) : (s.afterPendingQuery).reg j = s.reg j := rfl
@[simp] theorem State.afterPendingQuery_readByte (s : State) (k : Nat) : (s.afterPendingQuery).readByte k = s.readByte k := rfl

@[simp] theorem State.setDisplay_cfg (s : State) (g : Framebuffer) : (s.setDisplay g).cfg = s.cfg := rfl
@[simp] theorem State.setDisplay_v (s : State) (g : Framebuffer) : (s.setDisplay g).v = s.v := rfl
@[simp] theorem State.setDisplay_pc (s : State) (g : Framebuffer) : (s.setDisplay g).pc = s.pc := rfl
@[simp] theorem State.setDisplay_i (s : State) (g : Framebuffer) : (s.setDisplay g).i = s.i := rfl
@[simp] theorem State.setDisplay_dt (s : State) (g : Framebuffer) : (s.setDisplay g).dt = s.dt := rfl
@[simp] theorem State.setDisplay_st (s : State) (g : Framebuffer) : (s.setDisplay g).st = s.st := rfl
@[simp] theorem State.setDisplay_stack (s : State) (g : Framebuffer) : (s.setDisplay g).stack = s.stack := rfl
@[simp] theorem State.setDisplay_wait (s : State) (g : Framebuffer) : (s.setDisplay g).wait = s.wait := rfl
@[simp] theorem State.setDisplay_fault (s : State) (g : Framebuffer) : (s.setDisplay g).fault = s.fault := rfl
@[simp] theorem State.setDisplay_mem (s : State) (g : Framebuffer) : (s.setDisplay g).mem = s.mem := rfl
@[simp] theorem State.setDisplay_fb (s : State) (g : Framebuffer) : (s.setDisplay g).fb = g := rfl
@[simp] theorem State.setDisplay_slot (s : State) (g : Framebuffer) : (s.setDisplay g).slot = s.slot := rfl
@[simp] theorem State.setDisplay_requests (s : State) (g : Framebuffer) : (s.setDisplay g).requests = s.requests := rfl
@[simp] theorem State.setDisplay_keyAnswers (s : State) (g : Framebuffer) : (s.setDisplay g).keyAnswers = s.keyAnswers := rfl
@[simp] theorem State.setDisplay_pendingAnswers (s : State) (g : Framebuffer) : (s.setDisplay g).pendingAnswers = s.pendingAnswers := rfl
@[simp] theorem State.setDisplay_randomAnswers (s : State) (g : Framebuffer) : (s.setDisplay g).randomAnswers = s.randomAnswers := rfl
@[simp] theorem State.setDisplay_reg (s : State) (g : Framebuffer) (j : Reg) : (s.setDisplay g).reg j = s.reg j := rfl
@[simp] theorem State.setDisplay_readByte (s : State) (g : Framebuffer) (k : Nat) : (s.setDisplay g).readByte k = s.readByte k := rfl

@[simp] theorem State.decrementTimers_cfg (s : State) : (s.decrementTimers).cfg = s.cfg := rfl
@[simp] theorem State.decrementTimers_v (s : State) : (s.decrementTimers).v = s.v := rfl
@[simp] theorem State.decrementTimers_pc (s : State) : (s.decrementTimers).pc = s.pc := rfl
@[simp] theorem State.decrementTimers_i (s : State) : (s.decrementTimers).i = s.i := rfl
@[simp] theorem State.decrementTimers_dt (s : State) : (s.decrementTimers).dt = countDown s.dt := rfl
@[simp] theorem State.decrementTimers_st (s : State) : (s.decrementTimers).st = countDown s.st := rfl
@[simp] theorem State.decrementTimers_stack (s : State) : (s.decrementTimers).stack = s.stack := rfl
@[simp] theorem State.decrementTimers_wait (s : State) : (s.decrementTimers).wait = s.wait := rfl
@[simp] theorem State.decrementTimers_fault (s : State) : (s.decrementTimers).fault = s.fault := rfl
@[simp] theorem State.decrementTimers_mem (s : State) : (s.decrementTimers).mem = s.mem := rfl
@[simp] theorem State.decrementTimers_fb (s : State) : (s.decrementTimers).fb = s.fb := rfl
@[simp] theorem State.decrementTimers_slot (s : State) : (s.decrementTimers).slot = s.slot := rfl
@[simp] theorem State.decrementTimers_requests (s : State) : (s.decrementTimers).requests = s.requests := rfl
@[simp] theorem State.decrementTimers_keyAnswers (s : State) : (s.decrementTimers).keyAnswers = s.keyAnswers := rfl
@[simp] theorem State.decrementTimers_pendingAnswers (s : State) : (s.decrementTimers).pendingAnswers = s.pendingAnswers := rfl
@[simp] theorem State.decrementTimers_randomAnswers (s : State) : (s.decrementTimers).randomAnswers = s.randomAnswers := rfl
@[simp] theorem State.decrementTimers_reg (s : State) (j : Reg) : (s.decrementTimers).reg j = s.reg j := rfl
@[simp] theorem State.decrementTimers_readByte (s : State) (k : Nat) : (s.decrementTimers).readByte k = s.readByte k := rfl

@[simp] theorem State.countSlot_cfg (s : State) : (s.countSlot).cfg = s.cfg := rfl
@[simp] theorem State.countSlot_v (s : State) : (s.countSlot).v = s.v := rfl
@[simp] theorem State.countSlot_pc (s : State) : (s.countSlot).pc = s.pc := rfl
@[simp] theorem State.countSlot_i (s : State) : (s.countSlot).i = s.i := rfl
@[simp] theorem State.countSlot_dt (s : State) : (s.countSlot).dt = s.dt := rfl
@[simp] theorem State.countSlot_st (s : State) : (s.countSlot).st = s.st := rfl
@[simp] theorem State.countSlot_stack (s : State) : (s.countSlot).stack = s.stack := rfl
@[simp] theorem State.countSlot_wait (s : State) : (s.countSlot).wait = s.wait := rfl
@[simp] theorem State.countSlot_fault (s : State) : (s.countSlot).fault = s.fault := rfl
@[simp] theorem State.countSlot_mem (s : State) : (s.countSlot).mem = s.mem := rfl
@[simp] theorem State.countSlot_fb (s : State) : (s.countSlot).fb = s.fb := rfl
@[simp] theorem State.countSlot_slot (s : State) : (s.countSlot).slot = if s.slot + 1 < s.cfg.cyclesPerTick then s.slot + 1 else 0 := rfl
@[simp] theorem State.countSlot_requests (s : State) : (s.countSlot).requests = s.requests := rfl
@[simp] theorem State.countSlot_keyAnswers (s : State) : (s.countSlot).keyAnswers = s.keyAnswers := rfl
@[simp] theorem State.countSlot_pendingAnswers (s : State) : (s.countSlot).pendingAnswers = s.pendingAnswers := rfl
@[simp] theorem State.countSlot_randomAnswers (s : State) : (s.countSlot).randomAnswers = s.randomAnswers := rfl
@[simp] theorem State.countSlot_reg (s : State) (j : Reg) : (s.countSlot).reg j = s.reg j := rfl
@[simp] theorem State.countSlot_readByte (s : State) (k : Nat) : (s.countSlot).readByte k = s.readByte k := rfl

@[simp] theorem State.setFlagThenResult_cfg (s : State) (f : Byte) (x : Reg) (r : Byte) : (s.setFlagThenResult f x r).cfg = s.cfg := rfl
@[simp] theorem State.setFlagThenResult_v (s : State) (f : Byte) (x : Reg) (r : Byte) : (s.setFlagThenResult f x r).v = (s.v.set VF.val f).set x.val r := rfl
@[simp] theorem State.setFlagThenResult_pc (s : State) (f : Byte) (x : Reg) (r : Byte) : (s.setFlagThenResult f x r).pc = s.pc := rfl
@[simp] theorem State.setFlagThenResult_i (s : State) (f : Byte) (x : Reg) (r : Byte) : (s.setFlagThenResult f x r).i = s.i := rfl
@[simp] theorem State.setFlagThenResult_dt (s : State) (f : Byte) (x : Reg) (r : Byte) : (s.setFlagThenResult f x r).dt = s.dt := rfl
@[simp] theorem State.setFlagThenResult_st (s : State) (f : Byte) (x : Reg) (r : Byte) : (s.setFlagThenResult f x r).st = s.st := rfl
@[simp] theorem State.setFlagThenResult_stack (s : State) (f : Byte) (x : Reg) (r : Byte) : (s.setFlagThenResult f x r).stack = s.stack := rfl
@[simp] theorem State.setFlagThenResult_wait (s : State) (f : Byte) (x : Reg) (r : Byte) : (s.setFlagThenResult f x r).wait = s.wait := rfl
@[simp] theorem State.setFlagThenResult_fault (s : State) (f : Byte) (x : Reg) (r : Byte) : (s.setFlagThenResult f x r).fault = s.fault := rfl
@[simp] theorem State.setFlagThenResult_mem (s : State) (f : Byte) (x : Reg) (r : Byte) : (s.setFlagThenResult f x r).mem = s.mem := rfl
@[simp] theorem State.setFlagThenResult_fb (s : State) (f : Byte) (x : Reg) (r : Byte) : (s.setFlagThenResult f x r).fb = s.fb := rfl
@[simp] theorem State.setFlagThenResult_slot (s : State) (f : Byte) (x : Reg) (r : Byte) : (s.setFlagThenResult f x r).slot = s.slot := rfl
@[simp] theorem State.setFlagThenResult_requests (s : State) (f : Byte) (x : Reg) (r : Byte) : (s.setFlagThenResult f x r).requests = s.requests := rfl
@[simp] theorem State.setFlagThenResult_keyAnswers (s : State) (f : Byte) (x : Reg) (r : Byte) : (s.setFlagThenResult f x r).keyAnswers = s.keyAnswers := rfl
@[simp] theorem State.setFlagThenResult_pendingAnswers (s : State) (f : Byte) (x : Reg) (r : Byte) : (s.setFlagThenResult f x r).pendingAnswers = s.pendingAnswers := rfl
@[simp] theorem State.setFlagThenResult_randomAnswers (s : State) (f : Byte) (x : Reg) (r : Byte) : (s.setFlagThenResult f x r).randomAnswers = s.randomAnswers := rfl
@[simp] theorem State.setFlagThenResult_readByte (s : State) (f : Byte) (x : Reg) (r : Byte) (k : Nat) : (s.setFlagThenResult f x r).readByte k = s.readByte k := rfl

@[simp] theorem State.drawCells_cfg (s : State) (cells : List (Nat × Nat)) : (s.drawCells cells).cfg = s.cfg := rfl
@[simp] theorem State.drawCells_v (s : State) (cells : List (Nat × Nat)) : (s.drawCells cells).v = (s.v.set VF.val 0).set VF.val (flag (s.fb.drawPixels cells).2) := rfl
@[simp] theorem State.drawCells_pc (s : State) (cells : List (Nat × Nat)) : (s.drawCells cells).pc = s.pc := rfl
@[simp] theorem State.drawCells_i (s : State) (cells : List (Nat × Nat)) : (s.drawCells cells).i = s.i := rfl
@[simp] theorem State.drawCells_dt (s : State) (cells : List (Nat × Nat)) : (s.drawCells cells).dt = s.dt := rfl
@[simp] theorem State.drawCells_st (s : State) (cells : List (Nat × Nat)) : (s.drawCells cells).st = s.st := rfl
@[simp] theorem State.drawCells_stack (s : State) (cells : List (Nat × Nat)) : (s.drawCells cells).stack = s.stack := rfl
@[simp] theorem State.drawCells_wait (s : State) (cells : List (Nat × Nat)) : (s.drawCells cells).wait = s.wait := rfl
@[simp] theorem State.drawCells_fault (s : State) (cells : List (Nat × Nat)) : (s.drawCells cells).fault = s.fault := rfl
@[simp] theorem State.drawCells_mem (s : State) (cells : List (Nat × Nat)) : (s.drawCells cells).mem = s.mem := rfl
@[simp] theorem State.drawCells_fb (s : State) (cells : List (Nat × Nat)) : (s.drawCells cells).fb = (s.fb.drawPixels cells).1 := rfl
@[simp] theorem State.drawCells_slot (s : State) (cells : List (Nat × Nat)) : (s.drawCells cells).slot = s.slot := rfl
@[simp] theorem State.drawCells_requests (s : State) (cells : List (Nat × Nat)) : (s.drawCells cells).requests = s.requests := rfl
@[simp] theorem State.drawCells_keyAnswers (s : State) (cells : List (Nat × Nat)) : (s.drawCells cells).keyAnswers = s.keyAnswers := rfl
@[simp] theorem State.drawCells_pendingAnswers (s : State) (cells : List (Nat × Nat)) : (s.drawCells cells).pendingAnswers = s.pendingAnswers := rfl
@[simp] theorem State.drawCells_randomAnswers (s : State) (cells : List (Nat × Nat)) : (s.drawCells cells).randomAnswers = s.randomAnswers := rfl
@[simp] theorem State.drawCells_readByte (s : State) (cells : List (Nat × Nat)) (k : Nat) : (s.drawCells cells).readByte k = s.readByte k := rfl

@[simp] theorem State.skipIf_cfg (s : State) (c : Bool) : (s.skipIf c).cfg = s.cfg := by
  cases c <;> rfl
@[simp] theorem State.skipIf_v (s : State) (c : Bool) : (s.skipIf c).v = s.v := by
  cases c <;> rfl
@[simp] theorem State.skipIf_pc (s : State) (c : Bool) : (s.skipIf c).pc = if c then s.pc + 2 else s.pc := by
  cases c <;> rfl
@[simp] theorem State.skipIf_i (s : State) (c : Bool) : (s.skipIf c).i = s.i := by
  cases c <;> rfl
@[simp] theorem State.skipIf_dt (s : State) (c : Bool) : (s.skipIf c).dt = s.dt := by
  cases c <;> rfl
@[simp] theorem State.skipIf_st (s : State) (c : Bool) : (s.skipIf c).st = s.st := by
  cases c <;> rfl
@[simp] theorem State.skipIf_stack (s : State) (c : Bool) : (s.skipIf c).stack = s.stack := by
  cases c <;> rfl
@[simp] theorem State.skipIf_wait (s : State) (c : Bool) : (s.skipIf c).wait = s.wait := by
  cases c <;> rfl
@[simp] theorem State.skipIf_fault (s : State) (c : Bool) : (s.skipIf c).fault = s.fault := by
  cases c <;> rfl
@[simp] theorem State.skipIf_mem (s : State) (c : Bool) : (s.skipIf c).mem = s.mem := by
  cases c <;> rfl
@[simp] theorem State.skipIf_fb (s : State) (c : Bool) : (s.skipIf c).fb = s.fb := by
  cases c <;> rfl
@[simp] theorem State.skipIf_slot (s : State) (c : Bool) : (s.skipIf c).slot = s.slot := by
  cases c <;> rfl
@[simp] theorem State.skipIf_requests (s : State) (c : Bool) : (s.skipIf c).requests = s.requests := by
  cases c <;> rfl
@[simp] theorem State.skipIf_keyAnswers (s : State) (c : Bool) : (s.skipIf c).keyAnswers = s.keyAnswers := by
  cases c <;> rfl
@[simp] theorem State.skipIf_pendingAnswers (s : State) (c : Bool) : (s.skipIf c).pendingAnswers = s.pendingAnswers := by
  cases c <;> rfl
@[simp] theorem State.skipIf_randomAnswers (s : State) (c : Bool) : (s.skipIf c).randomAnswers = s.randomAnswers := by
  cases c <;> rfl
@[simp] theorem State.skipIf_reg (s : State) (c : Bool) (j : Reg) : (s.skipIf c).reg j = s.reg j := by
  cases c <;> rfl
@[simp] theorem State.skipIf_readByte (s : State) (c : Bool) (k : Nat) : (s.skipIf c).readByte k = s.readByte k := by
  cases c <;> rfl

@[simp] theorem State.setShift_cfg (s : State) (f : Byte) (x : Reg) (r : Byte) : (s.setShift f x r).cfg = s.cfg := by
  unfold State.setShift; split <;> rfl
@[simp] theorem State.setShift_v (s : State) (f : Byte) (x : Reg) (r : Byte) : (s.setShift f x r).v = if s.cfg.shiftCommit then (s.v.set VF.val f).set x.val r else s.v.set VF.val f := by
  unfold State.setShift; split <;> rfl
@[simp] theorem State.setShift_pc (s : State) (f : Byte) (x : Reg) (r : Byte) : (s.setShift f x r).pc = s.pc := by
  unfold State.setShift; split <;> rfl
@[simp] theorem State.setShift_i (s : State) (f : Byte) (x : Reg) (r : Byte) : (s.setShift f x r).i = s.i := by
  unfold State.setShift; split <;> rfl
@[simp] theorem State.setShift_dt (s : State) (f : Byte) (x : Reg) (r : Byte) : (s.setShift f x r).dt = s.dt := by
  unfold State.setShift; split <;> rfl
@[simp] theorem State.setShift_st (s : State) (f : Byte) (x : Reg) (r : Byte) : (s.setShift f x r).st = s.st := by
  unfold State.setShift; split <;> rfl
@[simp] theorem State.setShift_stack (s : State) (f : Byte) (x : Reg) (r : Byte) : (s.setShift f x r).stack = s.stack := by
  unfold State.setShift; split <;> rfl
@[simp] theorem State.setShift_wait (s : State) (f : Byte) (x : Reg) (r : Byte) : (s.setShift f x r).wait = s.wait := by
  unfold State.setShift; split <;> rfl
@[simp] theorem State.setShift_fault (s : State) (f : Byte) (x : Reg) (r : Byte) : (s.setShift f x r).fault = s.fault := by
  unfold State.setShift; split <;> rfl
@[simp] theorem State.setShift_mem (s : State) (f : Byte) (x : Reg) (r : Byte) : (s.setShift f x r).mem = s.mem := by
  unfold State.setShift; split <;> rfl
@[simp] theorem State.setShift_fb (s : State) (f : Byte) (x : Reg) (r : Byte) : (s.setShift f x r).fb = s.fb := by
  unfold State.setShift; split <;> rfl
@[simp] theorem State.setShift_slot (s : State) (f : Byte) (x : Reg) (r : Byte) : (s.setShift f x r).slot = s.slot := by
  unfold State.setShift; split <;> rfl
@[simp] theorem State.setShift_requests (s : State) (f : Byte) (x : Reg) (r : Byte) : (s.setShift f x r).requests = s.requests := by
  unfold State.setShift; split <;> rfl
@[simp] theorem State.setShift_keyAnswers (s : State) (f : Byte) (x : Reg) (r : Byte) : (s.setShift f x r).keyAnswers = s.keyAnswers := by
  unfold State.setShift; split <;> rfl
@[simp] theorem State.setShift_pendingAnswers (s : State) (f : Byte) (x : Reg) (r : Byte) : (s.setShift f x r).pendingAnswers = s.pendingAnswers := by
  unfold State.setShift; split <;> rfl
@[simp] theorem State.setShift_randomAnswers (s : State) (f : Byte) (x : Reg) (r : Byte) : (s.setShift f x r).randomAnswers = s.randomAnswers := by
  unfold State.setShift; split <;> rfl
@[simp] theorem State.setShift_readByte (s : State) (f : Byte) (x : Reg) (r : Byte) (k : Nat) : (s.setShift f x r).readByte k = s.readByte k := by
  unfold State.setShift; split <;> rfl

@[simp] theorem State.beginSlot_cfg (s : State) : (s.beginSlot).cfg = s.cfg := by
  unfold State.beginSlot; split <;> rfl
@[simp] theorem State.beginSlot_v (s : State) : (s.beginSlot).v = s.v := by
  unfold State.beginSlot; split <;> rfl
@[simp] theorem State.beginSlot_pc (s : State) : (s.beginSlot).pc = s.pc := by
  unfold State.beginSlot; split <;> rfl
@[simp] theorem State.beginSlot_i (s : State) : (s.beginSlot).i = s.i := by
  unfold State.beginSlot; split <;> rfl
@[simp] theorem State.beginSlot_dt (s : State) : (s.beginSlot).dt = if s.slot = 0 then countDown s.dt else s.dt := by
  unfold State.beginSlot; split <;> rfl
@[simp] theorem State.beginSlot_st (s : State) : (s.beginSlot).st = if s.slot = 0 then countDown s.st else s.st := by
  unfold State.beginSlot; split <;> rfl
@[simp] theorem State.beginSlot_stack (s : State) : (s.beginSlot).stack = s.stack := by
  unfold State.beginSlot; split <;> rfl
@[simp] theorem State.beginSlot_wait (s : State) : (s.beginSlot).wait = s.wait := by
  unfold State.beginSlot; split <;> rfl
@[simp] theorem State.beginSlot_fault (s : State) : (s.beginSlot).fault = s.fault := by
  unfold State.beginSlot; split <;> rfl
@[simp] theorem State.beginSlot_mem (s : State) : (s.beginSlot).mem = s.mem := by
  unfold State.beginSlot; split <;> rfl
@[simp] theorem State.beginSlot_fb (s : State) : (s.beginSlot).fb = s.fb := by
  unfold State.beginSlot; split <;> rfl
@[simp] theorem State.beginSlot_slot (s : State) : (s.beginSlot).slot = if s.slot + 1 < s.cfg.cyclesPerTick then s.slot + 1 else 0 := by
  unfold State.beginSlot; split <;> rfl
@[simp] theorem State.beginSlot_requests (s : State) : (s.beginSlot).requests = s.requests := by
  unfold State.beginSlot; split <;> rfl
@[simp] theorem State.beginSlot_keyAnswers (s : State) : (s.beginSlot).keyAnswers = s.keyAnswers := by
  unfold State.beginSlot; split <;> rfl
@[simp] theorem State.beginSlot_pendingAnswers (s : State) : (s.beginSlot).pendingAnswers = s.pendingAnswers := by
  unfold State.beginSlot; split <;> rfl
@[simp] theorem State.beginSlot_randomAnswers (s : State) : (s.beginSlot).randomAnswers = s.randomAnswers := by
  unfold State.beginSlot; split <;> rfl
@[simp] theorem State.beginSlot_reg (s : State) (j : Reg) : (s.beginSlot).reg j = s.reg j := by
  unfold State.beginSlot; split <;> rfl
@[simp] theorem State.beginSlot_readByte (s : State) (k : Nat) : (s.beginSlot).readByte k = s.readByte k := by
  unfold State.beginSlot; split <;> rfl

@[simp] theorem State.poll_cfg (s : State) (x : Reg) : (s.poll x).cfg = s.cfg := by
  unfold State.poll; split <;> rfl
@[simp] theorem State.poll_pc (s : State) (x : Reg) : (s.poll x).pc = s.pc := by
  unfold State.poll; split <;> rfl
@[simp] theorem State.poll_i (s : State) (x : Reg) : (s.poll x).i = s.i := by
  unfold State.poll; split <;> rfl
@[simp] theorem State.poll_dt (s : State) (x : Reg) : (s.poll x).dt = s.dt := by
  unfold State.poll; split <;> rfl
@[simp] theorem State.poll_st (s : State) (x : Reg) : (s.poll x).st = s.st := by
  unfold State.poll; split <;> rfl
@[simp] theorem State.poll_stack (s : State) (x : Reg) : (s.poll x).stack = s.stack := by
  unfold State.poll; split <;> rfl
@[simp] theorem State.poll_fault (s : State) (x : Reg) : (s.poll x).fault = s.fault := by
  unfold State.poll; split <;> rfl
@[simp] theorem State.poll_mem (s : State) (x : Reg) : (s.poll x).mem = s.mem := by
  unfold State.poll; split <;> rfl
@[simp] theorem State.poll_fb (s : State) (x : Reg) : (s.poll x).fb = s.fb := by
  unfold State.poll; split <;> rfl
@[simp] theorem State.poll_slot (s : State) (x : Reg) : (s.poll x).slot = s.slot := by
  unfold State.poll; split <;> rfl
@[simp] theorem State.poll_requests (s : State) (x : Reg) : (s.poll x).requests = s.requests + 1 := by
  unfold State.poll; split <;> rfl
@[simp] theorem State.poll_keyAnswers (s : State) (x : Reg) : (s.poll x).keyAnswers = s.keyAnswers := by
  unfold State.poll; split <;> rfl
@[simp] theorem State.poll_pendingAnswers (s : State) (x : Reg) : (s.poll x).pendingAnswers = s.pendingAnswers.tail := by
  unfold State.poll; split <;> rfl
@[simp] theorem State.poll_randomAnswers (s : State) (x : Reg) : (s.poll x).randomAnswers = s.randomAnswers := by
  unfold State.poll; split <;> rfl
@[simp] theorem State.poll_readByte (s : State) (x : Reg) (k : Nat) : (s.poll x).readByte k = s.readByte k := by
  unfold State.poll; split <;> rfl

@[simp] theorem State.writeBytes_cfg (s : State) (ws : List (Nat × Byte)) : (s.writeBytes ws).cfg = s.cfg := by
  induction ws generalizing s with
  | nil => rfl
  | cons w ws ih => exact ih _
@[simp] theorem State.writeBytes_v (s : State) (ws : List (Nat × Byte)) : (s.writeBytes ws).v = s.v := by
  induction ws generalizing s with
  | nil => rfl
  | cons w ws ih => exact ih _
@[simp] theorem State.writeBytes_pc (s : State) (ws : List (Nat × Byte)) : (s.writeBytes ws).pc = s.pc := by
  induction ws generalizing s with
  | nil => rfl
  | cons w ws ih => exact ih _
@[simp] theorem State.writeBytes_i (s : State) (ws : List (Nat × Byte)) : (s.writeBytes ws).i = s.i := by
  induction ws generalizing s with
  | nil => rfl
  | cons w ws ih => exact ih _
@[simp] theorem State.writeBytes_dt (s : State) (ws : List (Nat × Byte)) : (s.writeBytes ws).dt = s.dt := by
  induction ws generalizing s with
  | nil => rfl
  | cons w ws ih => exact ih _
@[simp] theorem State.writeBytes_st (s : State) (ws : List (Nat × Byte)) : (s.writeBytes ws).st = s.st := by
  induction ws generalizing s with
  | nil => rfl
  | cons w ws ih => exact ih _
@[simp] theorem State.writeBytes_stack (s : State) (ws : List (Nat × Byte)) : (s.writeBytes ws).stack = s.stack := by
  induction ws generalizing s with
  | nil => rfl
  | cons w ws ih => exact ih _
@[simp] theorem State.writeBytes_wait (s : State) (ws : List (Nat × Byte)) : (s.writeBytes ws).wait = s.wait := by
  induction ws generalizing s with
  | nil => rfl
  | cons w ws ih => exact ih _
@[simp] theorem State.writeBytes_fault (s : State) (ws : List (Nat × Byte)) : (s.writeBytes ws).fault = s.fault := by
  induction ws generalizing s with
  | nil => rfl
  | cons w ws ih => exact ih _
@[simp] theorem State.writeBytes_fb (s : State) (ws : List (Nat × Byte)) : (s.writeBytes ws).fb = s.fb := by
  induction ws generalizing s with
  | nil => rfl
  | cons w ws ih => exact ih _
@[simp] theorem State.writeBytes_slot (s : State) (ws : List (Nat × Byte)) : (s.writeBytes ws).slot = s.slot := by
  induction ws generalizing s with
  | nil => rfl
  | cons w ws ih => exact ih _
@[simp] theorem State.writeBytes_requests (s : State) (ws : List (Nat × Byte)) : (s.writeBytes ws).requests = s.requests := by
  induction ws generalizing s with
  | nil => rfl
  | cons w ws ih => exact ih _
@[simp] theorem State.writeBytes_keyAnswers (s : State) (ws : List (Nat × Byte)) : (s.writeBytes ws).keyAnswers = s.keyAnswers := by
  induction ws generalizing s with
  | nil => rfl
  | cons w ws ih => exact ih _
@[simp] theorem State.writeBytes_pendingAnswers (s : State) (ws : List (Nat × Byte)) : (s.writeBytes ws).pendingAnswers = s.pendingAnswers := by
  induction ws generalizing s with
  | nil => rfl
  | cons w ws ih => exact ih _
@[simp] theorem State.writeBytes_randomAnswers (s : State) (ws : List (Nat × Byte)) : (s.writeBytes ws).randomAnswers = s.randomAnswers := by
  induction ws generalizing s with
  | nil => rfl
  | cons w ws ih => exact ih _
@[simp] theorem State.writeBytes_reg (s : State) (ws : List (Nat × Byte)) (j : Reg) : (s.writeBytes ws).reg j = s.reg j := by
  simp [State.reg]

@[simp] theorem State.loadRegs_cfg (s : State) (ls : List (Reg × Byte)) : (s.loadRegs ls).cfg = s.cfg := by
  induction ls generalizing s with
  | nil => rfl
  | cons w ws ih => exact ih _
@[simp] theorem State.loadRegs_pc (s : State) (ls : List (Reg × Byte)) : (s.loadRegs ls).pc = s.pc := by
  induction ls generalizing s with
  | nil => rfl
  | cons w ws ih => exact ih _
@[simp] theorem State.loadRegs_i (s : State) (ls : List (Reg × Byte)) : (s.loadRegs ls).i = s.i := by
  induction ls generalizing s with
  | nil => rfl
  | cons w ws ih => exact ih _
@[simp] theorem State.loadRegs_dt (s : State) (ls : List (Reg × Byte)) : (s.loadRegs ls).dt = s.dt := by
  induction ls generalizing s with
  | nil => rfl
  | cons w ws ih => exact ih _
@[simp] theorem State.loadRegs_st (s : State) (ls : List (Reg × Byte)) : (s.loadRegs ls).st = s.st := by
  induction ls generalizing s with
  | nil => rfl
  | cons w ws ih => exact ih _
@[simp] theorem State.loadRegs_stack (s : State) (ls : List (Reg × Byte)) : (s.loadRegs ls).stack = s.stack := by
  induction ls generalizing s with
  | nil => rfl
  | cons w ws ih => exact ih _
@[simp] theorem State.loadRegs_wait (s : State) (ls : List (Reg × Byte)) : (s.loadRegs ls).wait = s.wait := by
  induction ls generalizing s with
  | nil => rfl
  | cons w ws ih => exact ih _
@[simp] theorem State.loadRegs_fault (s : State) (ls : List (Reg × Byte)) : (s.loadRegs ls).fault = s.fault := by
  induction ls generalizing s with
  | nil => rfl
  | cons w ws ih => exact ih _
@[simp] theorem State.loadRegs_mem (s : State) (ls : List (Reg × Byte)) : (s.loadRegs ls).mem = s.mem := by
  induction ls generalizing s with
  | nil => rfl
  | cons w ws ih => exact ih _
@[simp] theorem State.loadRegs_fb (s : State) (ls : List (Reg × Byte)) : (s.loadRegs ls).fb = s.fb := by
  induction ls generalizing s with
  | nil => rfl
  | cons w ws ih => exact ih _
@[simp] theorem State.loadRegs_slot (s : State) (ls : List (Reg × Byte)) : (s.loadRegs ls).slot = s.slot := by
  induction ls generalizing s with
  | nil => rfl
  | cons w ws ih => exact ih _
@[simp] theorem State.loadRegs_requests (s : State) (ls : List (Reg × Byte)) : (s.loadRegs ls).requests = s.requests := by
  induction ls generalizing s with
  | nil => rfl
  | cons w ws ih => exact ih _
@[simp] theorem State.loadRegs_keyAnswers (s : State) (ls : List (Reg × Byte)) : (s.loadRegs ls).keyAnswers = s.keyAnswers := by
  induction ls generalizing s with
  | nil => rfl
  | cons w ws ih => exact ih _
@[simp] theorem State.loadRegs_pendingAnswers (s : State) (ls : List (Reg × Byte)) : (s.loadRegs ls).pendingAnswers = s.pendingAnswers := by
  induction ls generalizing s with
  | nil => rfl
  | cons w ws ih => exact ih _
@[simp] theorem State.loadRegs_randomAnswers (s : State) (ls : List (Reg × Byte)) : (s.loadRegs ls).randomAnswers = s.randomAnswers := by
  induction ls generalizing s with
  | nil => rfl
  | cons w ws ih => exact ih _
@[simp] theorem State.loadRegs_readByte (s : State) (ls : List (Reg × Byte)) (k : Nat) : (s.loadRegs ls).readByte k = s.readByte k := by
  simp [State.readByte]

/-! ### Register reads after register writes -/

theorem State.reg_setReg (s : State) (x j : Reg) (b : Byte) : (s.setReg x b).reg j = if j = x then b else s.reg j := by
  by_cases h : j = x
  · subst h; simp [State.reg]
  · have h' : x.val ≠ j.val := fun e => h (Fin.ext e.symm)
    simp [State.reg, h, h']

@[simp] theorem State.reg_setReg_same (s : State) (x : Reg) (b : Byte) : (s.setReg x b).reg x = b := by
  simp [State.reg_setReg]

@[simp] theorem State.reg_setReg_other (s : State) (x j : Reg) (b : Byte) (h : j ≠ x) : (s.setReg x b).reg j = s.reg j := by
  simp [State.reg_setReg, h]

/-- R160: the result stays even where it overwrites the flag. -/
theorem State.reg_setFlagThenResult (s : State) (f : Byte) (x j : Reg) (r : Byte) :
    (s.setFlagThenResult f x r).reg j = if j = x then r else if j = VF then f else s.reg j := by
  simp [State.setFlagThenResult, State.reg_setReg]

/-- R169, R171: the shifted value only when SHIFT_COMMIT, the flag always. -/
theorem State.reg_setShift (s : State) (f : Byte) (x j : Reg) (r : Byte) :
    (s.setShift f x r).reg j = if s.cfg.shiftCommit ∧ j = x then r else if j = VF then f else s.reg j := by
  unfold State.setShift
  cases s.cfg.shiftCommit <;> simp [State.reg_setFlagThenResult, State.reg_setReg]

/-- R212: of the registers, drawing writes VF alone. -/
theorem State.reg_drawCells (s : State) (cells : List (Nat × Nat)) (j : Reg) :
    (s.drawCells cells).reg j = if j = VF then flag (s.fb.drawPixels cells).2 else s.reg j := by
  simp only [State.drawCells, State.reg_setReg, State.setDisplay_reg]
  split <;> rfl

/-- R108: a poll writes the destination register and ends the wait exactly when it is answered a key. -/
theorem State.reg_poll (s : State) (x j : Reg) :
    (s.poll x).reg j = match s.pendingAnswer with
      | some k => if j = x then BitVec.ofNat 8 k.val else s.reg j
      | none => s.reg j := by
  unfold State.poll
  split <;> simp [State.reg_setReg, *]

theorem State.wait_poll (s : State) (x : Reg) : (s.poll x).wait = if s.pendingAnswer.isSome then none else s.wait := by
  unfold State.poll
  split <;> simp [*]

theorem State.reg_loadRegs_other (s : State) (ls : List (Reg × Byte)) (j : Reg) (h : ∀ l ∈ ls, l.1 ≠ j) :
    (s.loadRegs ls).reg j = s.reg j := by
  induction ls generalizing s with
  | nil => rfl
  | cons l ls ih =>
    obtain ⟨y, b⟩ := l
    have hy : j ≠ y := fun e => h (y, b) (by simp) e.symm
    simpa [State.loadRegs, hy] using ih (s.setReg y b) (fun l hl => h l (by simp [hl]))

/-- Loading distinct registers: each ends with the byte loaded into it. -/
theorem State.reg_loadRegs_mem (s : State) (ls : List (Reg × Byte)) (hnd : (ls.map Prod.fst).Nodup) {j : Reg} {b : Byte}
    (h : (j, b) ∈ ls) : (s.loadRegs ls).reg j = b := by
  induction ls generalizing s with
  | nil => cases h
  | cons l ls ih =>
    obtain ⟨y, d⟩ := l
    simp only [List.map_cons, List.nodup_cons] at hnd
    rcases List.mem_cons.1 h with e | hm
    · cases e
      rw [State.loadRegs, State.reg_loadRegs_other _ _ _ (fun l hl e => hnd.1 (List.mem_map.2 ⟨l, hl, e⟩))]
      simp
    · exact ih (s.setReg y d) hnd.2 hm

end Sys2Proof.Machine
end

