-- ==== Sys2Proof/Laws/Memory.lean ====
section
/-! SUPPORT. The laws of memory (20_memory.md R59, R61): a read after a write, in every memory list, and that every memory operation
keeps the canonical form `Memory.wf`. -/

namespace Sys2Proof.Machine

/-! ### Reading after writing -/

theorem Memory.mem_erase {m : Memory} {a : Nat} {c : Host.Cell} : c ∈ Memory.erase m a ↔ c ∈ m ∧ c.1 ≠ a := by
  induction m with
  | nil => simp [Memory.erase]
  | cons d m ih =>
    unfold Memory.erase
    split
    case isTrue h =>
      rw [ih, List.mem_cons]
      constructor
      · exact fun ⟨h1, h2⟩ => ⟨.inr h1, h2⟩
      · rintro ⟨rfl | h1, h2⟩
        · exact absurd h h2
        · exact ⟨h1, h2⟩
    case isFalse h =>
      rw [List.mem_cons, List.mem_cons, ih]
      constructor
      · rintro (rfl | ⟨h1, h2⟩)
        · exact ⟨.inl rfl, h⟩
        · exact ⟨.inr h1, h2⟩
      · rintro ⟨rfl | h1, h2⟩
        · exact .inl rfl
        · exact .inr ⟨h1, h2⟩

theorem Memory.erase_sublist (m : Memory) (a : Nat) : (Memory.erase m a).Sublist m := by
  induction m with
  | nil => exact .slnil
  | cons d m ih =>
    unfold Memory.erase
    split
    · exact ih.cons d
    · exact ih.cons_cons d

theorem Memory.lookup_erase (m : Memory) (a k : Nat) :
    Memory.lookup (Memory.erase m a) k = if k = a then none else Memory.lookup m k := by
  induction m with
  | nil => simp [Memory.erase, Memory.lookup]
  | cons d m ih =>
    by_cases hd : d.1 = a <;> by_cases hk : k = a <;> by_cases hdk : d.1 = k <;>
      simp_all [Memory.erase, Memory.lookup]

theorem Memory.lookup_insert (m : Memory) (a k : Nat) (b : Byte) (h : Memory.lookup m a = none) :
    Memory.lookup (Memory.insert a b m) k = if k = a then some b else Memory.lookup m k := by
  induction m with
  | nil =>
    by_cases hk : k = a
    · simp [Memory.insert, Memory.lookup, hk]
    · simp [Memory.insert, Memory.lookup, hk, Ne.symm hk]
  | cons d m ih =>
    have hd : d.1 ≠ a := fun e => by simp [Memory.lookup, e] at h
    have hm : Memory.lookup m a = none := by simpa [Memory.lookup, hd] using h
    unfold Memory.insert
    split
    · by_cases hk : k = a
      · simp [Memory.lookup, hk]
      · simp [Memory.lookup, hk, Ne.symm hk]
    · rw [Memory.lookup, ih hm]
      by_cases hk : k = a
      · simp [hk, hd]
      · simp [hk, Memory.lookup]

/-- One spec lemma for `Memory.write`, for every list of cells, canonical or not. -/
theorem Memory.read_write (font : Font) (m : Memory) (a k : Nat) (b : Byte) :
    Memory.read font (Memory.write font m a b) k = if k = a then b else Memory.read font m k := by
  have hnone : Memory.lookup (Memory.erase m a) a = none := by simp [Memory.lookup_erase]
  unfold Memory.read Memory.write
  by_cases hb : b = Memory.initial font a
  · rw [if_pos hb, Memory.lookup_erase]
    by_cases hk : k = a
    · simp [hk, hb]
    · simp [hk]
  · rw [if_neg hb, Memory.lookup_insert _ _ _ _ hnone, Memory.lookup_erase]
    by_cases hk : k = a
    · simp [hk]
    · simp [hk]

theorem State.readByte_writeByte (s : State) (a k : Nat) (b : Byte) :
    (s.writeByte a b).readByte k = if k = a then b else s.readByte k :=
  Memory.read_write s.cfg.font s.mem a k b

@[simp] theorem State.readByte_writeByte_same (s : State) (a : Nat) (b : Byte) : (s.writeByte a b).readByte a = b := by
  simp [State.readByte_writeByte]

@[simp] theorem State.readByte_writeByte_other (s : State) (a k : Nat) (b : Byte) (h : k ≠ a) :
    (s.writeByte a b).readByte k = s.readByte k := by
  simp [State.readByte_writeByte, h]

theorem State.readByte_writeBytes_other (s : State) (ws : List (Nat × Byte)) (k : Nat) (h : ∀ w ∈ ws, w.1 ≠ k) :
    (s.writeBytes ws).readByte k = s.readByte k := by
  induction ws generalizing s with
  | nil => rfl
  | cons w ws ih =>
    obtain ⟨a, b⟩ := w
    have ha : k ≠ a := fun e => h (a, b) (by simp) e.symm
    simpa [State.writeBytes, ha] using ih (s.writeByte a b) (fun w hw => h w (by simp [hw]))

/-- Writing to distinct addresses: each ends with the byte written to it. -/
theorem State.readByte_writeBytes_mem (s : State) (ws : List (Nat × Byte)) (hnd : (ws.map Prod.fst).Nodup) {k : Nat} {b : Byte}
    (h : (k, b) ∈ ws) : (s.writeBytes ws).readByte k = b := by
  induction ws generalizing s with
  | nil => cases h
  | cons w ws ih =>
    obtain ⟨a, d⟩ := w
    simp only [List.map_cons, List.nodup_cons] at hnd
    rcases List.mem_cons.1 h with e | hm
    · cases e
      rw [State.writeBytes, State.readByte_writeBytes_other _ _ _ (fun w hw e => hnd.1 (List.mem_map.2 ⟨w, hw, e⟩))]
      simp
    · exact ih (s.writeByte a d) hnd.2 hm

/-! ### The canonical form -/

theorem Memory.sorted_iff (m : Memory) : Memory.sorted m = true ↔ m.Pairwise (fun c d => c.1 < d.1) := by
  induction m with
  | nil => simp [Memory.sorted]
  | cons c m ih =>
    cases m with
    | nil => simp [Memory.sorted]
    | cons d m =>
      simp only [Memory.sorted, Bool.and_eq_true, decide_eq_true_eq, ih]
      constructor
      · rintro ⟨hcd, hm⟩
        refine List.pairwise_cons.2 ⟨fun e he => ?_, hm⟩
        rcases List.mem_cons.1 he with rfl | he
        · exact hcd
        · exact lt_trans hcd ((List.pairwise_cons.1 hm).1 e he)
      · intro h
        exact ⟨(List.pairwise_cons.1 h).1 d (by simp), (List.pairwise_cons.1 h).2⟩

theorem Memory.wf_iff (font : Font) (m : Memory) :
    Memory.wf font m = true ↔
      m.Pairwise (fun c d => c.1 < d.1) ∧ ∀ c ∈ m, c.1 < memSize ∧ c.2 ≠ Memory.initial font c.1 := by
  simp [Memory.wf, Memory.sorted_iff]

theorem Memory.mem_insert (a : Nat) (b : Byte) (m : Memory) (c : Host.Cell) : c ∈ Memory.insert a b m ↔ c = (a, b) ∨ c ∈ m := by
  induction m with
  | nil => simp [Memory.insert]
  | cons d m ih =>
    unfold Memory.insert
    split
    · simp
    · simp [ih, or_left_comm]

theorem Memory.pairwise_insert (a : Nat) (b : Byte) (m : Memory) (hm : m.Pairwise (fun c d => c.1 < d.1))
    (h : ∀ c ∈ m, c.1 ≠ a) : (Memory.insert a b m).Pairwise (fun c d => c.1 < d.1) := by
  induction m with
  | nil => simp [Memory.insert]
  | cons d m ih =>
    obtain ⟨hd, hm'⟩ := List.pairwise_cons.1 hm
    unfold Memory.insert
    split
    case isTrue hlt =>
      refine List.pairwise_cons.2 ⟨fun c hc => ?_, hm⟩
      rcases List.mem_cons.1 hc with rfl | hc
      · exact hlt
      · exact lt_trans hlt (hd c hc)
    case isFalse hge =>
      refine List.pairwise_cons.2 ⟨fun c hc => ?_, ih hm' (fun c hc => h c (by simp [hc]))⟩
      rcases (Memory.mem_insert a b m c).1 hc with rfl | hc
      · have := h d (by simp)
        simp only at *
        omega
      · exact hd c hc

/-- A write inside the address space keeps the canonical form. -/
theorem Memory.wf_write (font : Font) (m : Memory) (a : Nat) (b : Byte) (ha : a < memSize) (hm : Memory.wf font m = true) :
    Memory.wf font (Memory.write font m a b) = true := by
  obtain ⟨hs, hc⟩ := (Memory.wf_iff font m).1 hm
  have hs' : (Memory.erase m a).Pairwise (fun c d => c.1 < d.1) := hs.sublist (Memory.erase_sublist m a)
  have hc' : ∀ c ∈ Memory.erase m a, c.1 < memSize ∧ c.2 ≠ Memory.initial font c.1 := fun c h => hc c (Memory.mem_erase.1 h).1
  rw [Memory.wf_iff]
  unfold Memory.write
  by_cases hb : b = Memory.initial font a
  · rw [if_pos hb]
    exact ⟨hs', hc'⟩
  · rw [if_neg hb]
    refine ⟨Memory.pairwise_insert a b _ hs' (fun c h => (Memory.mem_erase.1 h).2), fun c h => ?_⟩
    rcases (Memory.mem_insert a b _ c).1 h with rfl | h
    · exact ⟨ha, hb⟩
    · exact hc' c h

theorem State.wf_writeByte (s : State) (a : Nat) (b : Byte) (ha : a < memSize) (h : Memory.wf s.cfg.font s.mem = true) :
    Memory.wf (s.writeByte a b).cfg.font (s.writeByte a b).mem = true :=
  Memory.wf_write s.cfg.font s.mem a b ha h

theorem State.wf_writeBytes (s : State) (ws : List (Nat × Byte)) (hw : ∀ w ∈ ws, w.1 < memSize)
    (h : Memory.wf s.cfg.font s.mem = true) : Memory.wf (s.writeBytes ws).cfg.font (s.writeBytes ws).mem = true := by
  induction ws generalizing s with
  | nil => exact h
  | cons w ws ih =>
    exact ih (s.writeByte w.1 w.2) (fun w' hw' => hw w' (by simp [hw'])) (s.wf_writeByte w.1 w.2 (hw w (by simp)) h)

/-- Reset's memory lists nothing, which is canonical at every font. -/
theorem Memory.wf_nil (font : Font) : Memory.wf font [] = true := rfl

end Sys2Proof.Machine
end

