-- ==== Sys2Proof/Laws/Ops.lean ====
section
/-! SUPPORT. One lemma per shared operation that says everything it can do: effective addresses, the stack, the ports' one answer,
the framebuffer, fetch. -/

namespace Sys2Proof.Machine

/-! ### Effective addresses (20_memory.md R57) -/

theorem land_mask (a : Nat) : a &&& 0xFFF = a % 4096 := Nat.and_two_pow_sub_one_eq_mod a 12

/-- An address that can be accessed: in range, or wrapped by the mask policy. -/
def Reachable (policy : AddrPolicy) (a : Nat) : Prop := a ≤ 0xFFF ∨ policy = .mask

theorem ea_spec (policy : AddrPolicy) (a : Nat) (kind : AccessKind) :
    (Reachable policy a ∧ ea policy a kind = .ok (a % 4096)) ∨
      (0xFFF < a ∧ policy = .fault ∧ ea policy a kind = .error (.memoryRange a kind)) := by
  unfold ea Reachable
  by_cases h : a ≤ 0xFFF
  · exact .inl ⟨.inl h, by simp [h, Nat.mod_eq_of_lt (Nat.lt_succ_of_le h)]⟩
  · cases policy
    · exact .inr ⟨by omega, rfl, by simp [h]⟩
    · exact .inl ⟨.inr rfl, by simp [h, land_mask]⟩

theorem ea_reachable {policy : AddrPolicy} {a : Nat} (kind : AccessKind) (h : Reachable policy a) :
    ea policy a kind = .ok (a % 4096) := by
  rcases ea_spec policy a kind with ⟨-, e⟩ | ⟨ha, hp, -⟩
  · exact e
  · rcases h with h | h
    · omega
    · cases hp.symm.trans h

/-- The addresses of `count` accessible bytes from a, each taken mod 4096. -/
theorem eaRange_ok (policy : AddrPolicy) (kind : AccessKind) (count a : Nat)
    (h : a + count ≤ 0x1000 ∨ policy = .mask ∨ count = 0) :
    eaRange policy a kind count = .ok ((List.range' a count).map (· % 4096)) := by
  induction count generalizing a with
  | zero => rfl
  | succ n ih =>
    have h1 : Reachable policy a := by unfold Reachable; rcases h with h | h | h <;> [left; right; left] <;> [omega; exact h; omega]
    have h2 : a + 1 + n ≤ 0x1000 ∨ policy = .mask ∨ n = 0 := by rcases h with h | h | h <;> [left; (right; left); left] <;> [omega; exact h; omega]
    simp [eaRange, ea_reachable kind h1, ih (a + 1) h2, List.range'_succ]

/-- The first address out of range is the one reported. -/
theorem eaRange_error (kind : AccessKind) (count a : Nat) (h : 0x1000 < a + count) (hc : count ≠ 0) :
    eaRange .fault a kind count = .error (.memoryRange (max a 0x1000) kind) := by
  induction count generalizing a with
  | zero => exact absurd rfl hc
  | succ n ih =>
    rcases ea_spec .fault a kind with ⟨hr, e⟩ | ⟨ha, -, e⟩
    · have ha : a ≤ 0xFFF := by rcases hr with hr | hr <;> [exact hr; cases hr]
      have := ih (a + 1) (by omega) (by omega)
      have hm : max (a + 1) 0x1000 = max a 0x1000 := by omega
      simp [eaRange, e, this, hm]
    · have hm : max a 0x1000 = a := by omega
      simp [eaRange, e, hm]

/-- All that `eaRange` can answer. -/
theorem eaRange_spec (policy : AddrPolicy) (kind : AccessKind) (count a : Nat) :
    ((a + count ≤ 0x1000 ∨ policy = .mask ∨ count = 0) ∧
        eaRange policy a kind count = .ok ((List.range' a count).map (· % 4096))) ∨
      (policy = .fault ∧ 0x1000 < a + count ∧ count ≠ 0 ∧
        eaRange policy a kind count = .error (.memoryRange (max a 0x1000) kind)) := by
  by_cases h : a + count ≤ 0x1000 ∨ policy = .mask ∨ count = 0
  · exact .inl ⟨h, eaRange_ok policy kind count a h⟩
  · simp only [not_or] at h
    cases policy
    · exact .inr ⟨rfl, by omega, h.2.2, eaRange_error kind count a (by omega) h.2.2⟩
    · exact absurd rfl h.2.1

/-- Every address `eaRange` gives is inside the address space. -/
theorem eaRange_lt {policy : AddrPolicy} {kind : AccessKind} {count a : Nat} {as : List Nat}
    (h : eaRange policy a kind count = .ok as) : ∀ k ∈ as, k < memSize := by
  rcases eaRange_spec policy kind count a with ⟨-, e⟩ | ⟨-, -, -, e⟩
  · rw [e] at h
    cases h
    intro k hk
    obtain ⟨j, -, rfl⟩ := List.mem_map.1 hk
    exact Nat.mod_lt _ (by decide)
  · rw [e] at h; cases h

theorem eaRange_length {policy : AddrPolicy} {kind : AccessKind} {count a : Nat} {as : List Nat}
    (h : eaRange policy a kind count = .ok as) : as.length = count := by
  rcases eaRange_spec policy kind count a with ⟨-, e⟩ | ⟨-, -, -, e⟩
  · rw [e] at h; cases h; simp
  · rw [e] at h; cases h

/-- At most 4096 consecutive addresses stay distinct under either policy. -/
theorem eaRange_nodup {policy : AddrPolicy} {kind : AccessKind} {count a : Nat} {as : List Nat}
    (h : eaRange policy a kind count = .ok as) (hc : count ≤ 4096) : as.Nodup := by
  rcases eaRange_spec policy kind count a with ⟨-, e⟩ | ⟨-, -, -, e⟩
  · rw [e] at h
    cases h
    refine (List.nodup_map_iff_inj_on List.nodup_range').2 fun x hx y hy hxy => ?_
    simp only [List.mem_range'_1] at hx hy
    omega
  · rw [e] at h; cases h

/-! ### The call stack -/

@[simp] theorem State.top_push (s : State) (a : Word) : (s.push a).top = some a := by
  simp [State.top]

@[simp] theorem State.stack_dropTop_push (s : State) (a : Word) : (s.push a).dropTop.stack = s.stack := by
  simp

theorem State.fullDepth_spec (s : State) (d : Nat) :
    s.fullDepth = some d ↔ s.cfg.stackDepth = some d ∧ s.stack.length = d := by
  unfold State.fullDepth
  split
  · simp [*]
  · simp only [*, Option.some.injEq]
    split <;> simp_all [eq_comm]

/-! ### The registers an FX55 or FX65 names -/

theorem regsUpTo_length (x : Reg) : (regsUpTo x).length = x.val + 1 := by
  revert x; decide

theorem mem_regsUpTo (x j : Reg) : j ∈ regsUpTo x ↔ j ≤ x := by
  simp [regsUpTo]

theorem regsUpTo_getElem? (x : Reg) (k : Nat) (h : k ≤ x.val) : (regsUpTo x)[k]? = some ⟨k, by omega⟩ := by
  have key : ∀ x : Reg, ∀ k : Reg, k ≤ x → (regsUpTo x)[k.val]? = some k := by decide
  exact key x ⟨k, by omega⟩ h

theorem regsUpTo_nodup (x : Reg) : (regsUpTo x).Nodup := (List.nodup_finRange 16).filter _

/-! ### The framebuffer (45_display.md R210) -/

theorem Framebuffer.get_put (fb : Framebuffer) (x y a b : Nat) (p : Bool) :
    (fb.put x y p).get a b = if a % 64 = x % 64 ∧ b % 32 = y % 32 then p else fb.get a b := by
  unfold Framebuffer.get Framebuffer.put
  by_cases hy : b % 32 = y % 32
  · by_cases hx : a % 64 = x % 64
    · simp [hx, hy]
    · simp [hx, hy, Ne.symm hx]
  · simp [hy, Ne.symm hy]

/-- Two framebuffers with the same cells are the same. -/
theorem Framebuffer.ext_get {f g : Framebuffer} (h : ∀ x < 64, ∀ y < 32, f.get x y = g.get x y) : f = g := by
  apply Vector.ext
  intro y hy
  apply Vector.ext
  intro x hx
  simpa [Framebuffer.get, Nat.mod_eq_of_lt hx, Nat.mod_eq_of_lt hy] using h x hx y hy

theorem Framebuffer.get_clear (x y : Nat) : Framebuffer.clear.get x y = false := by
  simp [Framebuffer.get, Framebuffer.clear]

/-- drawPixel toggles the one cell and returns what it was (R210). -/
theorem Framebuffer.get_drawPixel (fb : Framebuffer) (x y a b : Nat) :
    (fb.drawPixel x y).1.get a b = (fb.get a b ^^ decide (a % 64 = x % 64 ∧ b % 32 = y % 32)) := by
  unfold Framebuffer.drawPixel
  rw [Framebuffer.get_put]
  by_cases h : a % 64 = x % 64 ∧ b % 32 = y % 32
  · have e : fb.get x y = fb.get a b := by simp [Framebuffer.get, h.1, h.2]
    simp [h, e]
  · simp [h]

/-- Drawing a list of distinct cells inside the grid toggles exactly those cells. -/
theorem Framebuffer.get_drawPixels (fb : Framebuffer) (cells : List (Nat × Nat)) (hnd : cells.Nodup)
    (hin : ∀ c ∈ cells, c.1 < 64 ∧ c.2 < 32) (a b : Nat) (ha : a < 64) (hb : b < 32) :
    (fb.drawPixels cells).1.get a b = (fb.get a b ^^ decide ((a, b) ∈ cells)) := by
  induction cells generalizing fb with
  | nil => simp [Framebuffer.drawPixels]
  | cons c cs ih =>
    obtain ⟨x, y⟩ := c
    obtain ⟨hx, hy⟩ : x < 64 ∧ y < 32 := hin (x, y) (by simp)
    obtain ⟨hc, hcs⟩ := List.nodup_cons.1 hnd
    simp only [Framebuffer.drawPixels]
    rw [ih _ hcs (fun c h => hin c (by simp [h])), Framebuffer.get_drawPixel]
    simp only [Nat.mod_eq_of_lt ha, Nat.mod_eq_of_lt hb, Nat.mod_eq_of_lt hx, Nat.mod_eq_of_lt hy, List.mem_cons, Prod.mk.injEq]
    by_cases h : a = x ∧ b = y
    · obtain ⟨rfl, rfl⟩ := h
      simp [hc]
    · simp [h]

/-- A flip is recorded exactly when some cell drawn was set before (R212). -/
theorem Framebuffer.flip_drawPixels (fb : Framebuffer) (cells : List (Nat × Nat)) (hnd : cells.Nodup)
    (hin : ∀ c ∈ cells, c.1 < 64 ∧ c.2 < 32) : (fb.drawPixels cells).2 = cells.any (fun c => fb.get c.1 c.2) := by
  induction cells generalizing fb with
  | nil => rfl
  | cons c cs ih =>
    obtain ⟨x, y⟩ := c
    obtain ⟨hx, hy⟩ : x < 64 ∧ y < 32 := hin (x, y) (by simp)
    obtain ⟨hc, hcs⟩ := List.nodup_cons.1 hnd
    have hin' : ∀ c ∈ cs, c.1 < 64 ∧ c.2 < 32 := fun c h => hin c (by simp [h])
    simp only [Framebuffer.drawPixels, List.any_cons]
    rw [ih _ hcs hin']
    congr 1
    rw [Bool.eq_iff_iff, List.any_eq_true, List.any_eq_true]
    refine exists_congr fun d => and_congr_right fun hd => ?_
    have hne : ¬ (d.1 % 64 = x % 64 ∧ d.2 % 32 = y % 32) := by
      rintro ⟨e1, e2⟩
      obtain ⟨h1, h2⟩ := hin' d hd
      rw [Nat.mod_eq_of_lt h1, Nat.mod_eq_of_lt hx] at e1
      rw [Nat.mod_eq_of_lt h2, Nat.mod_eq_of_lt hy] at e2
      exact hc (by rwa [← e1, ← e2])
    simp [Framebuffer.get_drawPixel, hne]

/-! ### The cells of a sprite (45_display.md R212) -/

theorem mem_spriteRowCells (cx row : Nat) (bits : Byte) (c : Nat × Nat) :
    c ∈ spriteRowCells cx row bits ↔ c.2 = row ∧ c.1 < 64 ∧ cx ≤ c.1 ∧ c.1 < cx + 8 ∧ bits.getLsbD (7 - (c.1 - cx)) = true := by
  obtain ⟨a, r⟩ := c
  have htake : ∀ (n s : Nat) (b : Nat),
      b ∈ ((List.range' s n).takeWhile (fun b => decide (cx + b < 64))) ↔ s ≤ b ∧ b < s + n ∧ cx + b < 64 := by
    intro n
    induction n with
    | zero => intro s b; simp; omega
    | succ n ih =>
      intro s b
      rw [List.range'_succ, List.takeWhile_cons]
      split
      case isTrue h =>
        simp only [decide_eq_true_eq] at h
        rw [List.mem_cons, ih]
        omega
      case isFalse h =>
        simp only [decide_eq_true_eq] at h
        simp only [List.not_mem_nil, false_iff]
        omega
  unfold spriteRowCells
  rw [List.range_eq_range']
  simp only [List.mem_map, List.mem_filter, htake, Prod.mk.injEq]
  constructor
  · rintro ⟨b, ⟨⟨-, h8, h64⟩, hb⟩, rfl, rfl⟩
    refine ⟨rfl, h64, by omega, by omega, ?_⟩
    rwa [Nat.add_sub_cancel_left]
  · rintro ⟨rfl, h64, hle, hlt, hb⟩
    exact ⟨a - cx, ⟨⟨by omega, by omega, by omega⟩, hb⟩, by omega, rfl⟩

/-- Where a sprite sets out to toggle: row r of its bytes at framebuffer row cy + r. -/
theorem mem_spriteCells (cx cy : Nat) (rows : List Byte) (c : Nat × Nat) :
    c ∈ spriteCells cx cy rows ↔
      ∃ bits, rows[c.2 - cy]? = some bits ∧ cy ≤ c.2 ∧ c.1 < 64 ∧ cx ≤ c.1 ∧ c.1 < cx + 8 ∧ bits.getLsbD (7 - (c.1 - cx)) = true := by
  induction rows generalizing cy with
  | nil => simp [spriteCells]
  | cons bits rest ih =>
    rw [spriteCells, List.mem_append, mem_spriteRowCells, ih]
    rcases Nat.lt_trichotomy c.2 cy with h | h | h
    · constructor
      · rintro (⟨e, -⟩ | ⟨_, -, hle, -⟩) <;> omega
      · rintro ⟨_, -, hle, -⟩; omega
    · constructor
      · rintro (⟨e, h1, h2, h3, h4⟩ | ⟨_, -, hle, -⟩)
        · exact ⟨bits, by simp [h], by omega, h1, h2, h3, h4⟩
        · omega
      · rintro ⟨b, hb, -, h1, h2, h3, h4⟩
        rw [h, Nat.sub_self] at hb
        simp only [List.getElem?_cons_zero, Option.some.injEq] at hb
        subst hb
        exact .inl ⟨h, h1, h2, h3, h4⟩
    · have e : c.2 - cy = (c.2 - (cy + 1)) + 1 := by omega
      rw [e, List.getElem?_cons_succ]
      constructor
      · rintro (⟨h', -⟩ | ⟨b, hb, -, hr⟩)
        · omega
        · exact ⟨b, hb, by omega, hr⟩
      · rintro ⟨b, hb, -, hr⟩
        exact .inr ⟨b, hb, by omega, hr⟩

theorem spriteRowCells_nodup (cx row : Nat) (bits : Byte) : (spriteRowCells cx row bits).Nodup := by
  unfold spriteRowCells
  refine List.Nodup.map (fun x y h => by simpa using h) ?_
  exact List.Nodup.filter _ ((List.takeWhile_sublist _).nodup List.nodup_range)

theorem spriteCells_nodup (cx cy : Nat) (rows : List Byte) : (spriteCells cx cy rows).Nodup := by
  induction rows generalizing cy with
  | nil => exact List.nodup_nil
  | cons bits rest ih =>
    refine List.nodup_append.2 ⟨spriteRowCells_nodup _ _ _, ih _, fun a ha b hb e => ?_⟩
    subst e
    obtain ⟨e, -⟩ := (mem_spriteRowCells _ _ _ _).1 ha
    obtain ⟨_, -, hle, -⟩ := (mem_spriteCells _ _ _ _).1 hb
    omega

/-- Cells of unclipped rows are inside the grid. -/
theorem spriteCells_inside (cx cy : Nat) (rows : List Byte) (h : rows = [] ∨ cy + rows.length ≤ 32) :
    ∀ c ∈ spriteCells cx cy rows, c.1 < 64 ∧ c.2 < 32 := by
  intro c hc
  obtain ⟨bits, hb, hle, h64, -⟩ := (mem_spriteCells _ _ _ _).1 hc
  obtain ⟨hlt, -⟩ := List.getElem?_eq_some_iff.1 hb
  refine ⟨h64, ?_⟩
  rcases h with rfl | h
  · simp at hlt
  · omega

/-- The unclipped rows end above the bottom edge. -/
theorem spriteRows_le (n : Nibble) (cy : Nat) : spriteRows n cy = 0 ∨ cy + spriteRows n cy ≤ 32 := by
  unfold spriteRows; omega

/-! ### Fetch (40_execution_cycle.md R105) -/

/-- All that the address check of a fetch can answer. -/
theorem State.fetchAddrs_spec (s : State) :
    ((s.cfg.addrPolicy = .mask ∨ s.pc.toNat < 0xFFF) ∧ s.fetchAddrs = .ok (s.pc.toNat % 4096, (s.pc.toNat + 1) % 4096)) ∨
      (s.cfg.addrPolicy = .fault ∧ 0xFFF ≤ s.pc.toNat ∧
        s.fetchAddrs = .error (.memoryRange (max s.pc.toNat 0x1000) .fetch)) := by
  unfold State.fetchAddrs
  rcases ea_spec s.cfg.addrPolicy s.pc.toNat .fetch with ⟨h0, e0⟩ | ⟨h0, p0, e0⟩
  · rcases ea_spec s.cfg.addrPolicy (s.pc.toNat + 1) .fetch with ⟨h1, e1⟩ | ⟨h1, p1, e1⟩
    · left
      rw [e0, e1]
      refine ⟨?_, rfl⟩
      rcases h1 with h1 | h1
      · right; omega
      · exact .inl h1
    · right
      have h0' : s.pc.toNat ≤ 0xFFF := by rcases h0 with h | h <;> [exact h; (rw [p1] at h; cases h)]
      have hm : max s.pc.toNat 0x1000 = s.pc.toNat + 1 := by omega
      rw [e0, e1, hm]
      exact ⟨p1, by omega, rfl⟩
  · right
    have hm : max s.pc.toNat 0x1000 = s.pc.toNat := by omega
    rw [e0, hm]
    exact ⟨p0, by omega, rfl⟩

/-- All that a cycle can do. -/
theorem State.cycle_spec (s : State) :
    (∃ c, s.fetchAddrs = .error c ∧ s.cycle = .next (s.raise c s.pc)) ∨
      ∃ a0 a1, s.fetchAddrs = .ok (a0, a1) ∧
        ((∃ i, decodeWord (wordOfBytes (s.readByte a0) (s.readByte a1)) = .ok i ∧ s.cycle = exec i s.advancePc) ∨
          ∃ e, decodeWord (wordOfBytes (s.readByte a0) (s.readByte a1)) = .error e ∧
            s.cycle = .next (s.advancePc.raise (.unknownOpcode (wordOfBytes (s.readByte a0) (s.readByte a1))) s.pc)) := by
  rcases h : s.fetchAddrs with c | ⟨a0, a1⟩
  · exact .inl ⟨c, rfl, by simp [State.cycle, State.fetch, h]⟩
  · refine .inr ⟨a0, a1, rfl, ?_⟩
    rcases hd : decodeWord (wordOfBytes (s.readByte a0) (s.readByte a1)) with e | i
    · exact .inr ⟨e, rfl, by simp [State.cycle, State.fetch, h, hd]⟩
    · exact .inl ⟨i, rfl, by simp [State.cycle, State.fetch, h, hd]⟩

end Sys2Proof.Machine
end

