-- ==== Sys2Proof/Laws/PerInstr.lean ====
section
/-! SUPPORT. The family TableRow, one lemma per constructor: the word an instruction is assembled to lies in that instruction's own row
of the opcode table (30_encoding.md R83), the row's match under the row's mask. -/

namespace Sys2Proof.Laws.TableRow

/-- The row's mask in spec/opcode_table.json. -/
def mask : Instr → Word
  | .systemCallStub _ => 0xF000
  | .clearDisplay => 0xF0FF
  | .ret => 0xF0FF
  | .goto _ => 0xF000
  | .call _ => 0xF000
  | .skipIfEqual _ _ => 0xF000
  | .skipIfNotEqual _ _ => 0xF000
  | .skipIfRegistersEqual _ _ => 0xF000
  | .setRegister _ _ => 0xF000
  | .addImmediate _ _ => 0xF000
  | .assignRegister _ _ => 0xF00F
  | .or _ _ => 0xF00F
  | .and _ _ => 0xF00F
  | .xor _ _ => 0xF00F
  | .addRegisters _ _ => 0xF00F
  | .subtractRegisters _ _ => 0xF00F
  | .shiftRight _ => 0xF00F
  | .reverseSubtract _ _ => 0xF00F
  | .shiftLeft _ => 0xF00F
  | .skipIfRegistersNotEqual _ _ => 0xF000
  | .setIndex _ => 0xF000
  | .jumpWithOffset _ => 0xF000
  | .andRandom _ _ => 0xF000
  | .drawSprite _ _ _ => 0xF000
  | .skipIfKeyPressed _ => 0xF0FF
  | .skipIfKeyNotPressed _ => 0xF0FF
  | .getDelayTimer _ => 0xF0FF
  | .getKey _ => 0xF0FF
  | .setDelayTimer _ => 0xF0FF
  | .setSoundTimer _ => 0xF0FF
  | .addToIndex _ => 0xF0FF
  | .setIndexToFontGlyph _ => 0xF0FF
  | .storeBcd _ => 0xF0FF
  | .dumpRegisters _ => 0xF0FF
  | .loadRegisters _ => 0xF0FF

/-- The row's match in spec/opcode_table.json. -/
def pattern : Instr → Word
  | .systemCallStub _ => 0x0000
  | .clearDisplay => 0x00E0
  | .ret => 0x00EE
  | .goto _ => 0x1000
  | .call _ => 0x2000
  | .skipIfEqual _ _ => 0x3000
  | .skipIfNotEqual _ _ => 0x4000
  | .skipIfRegistersEqual _ _ => 0x5000
  | .setRegister _ _ => 0x6000
  | .addImmediate _ _ => 0x7000
  | .assignRegister _ _ => 0x8000
  | .or _ _ => 0x8001
  | .and _ _ => 0x8002
  | .xor _ _ => 0x8003
  | .addRegisters _ _ => 0x8004
  | .subtractRegisters _ _ => 0x8005
  | .shiftRight _ => 0x8006
  | .reverseSubtract _ _ => 0x8007
  | .shiftLeft _ => 0x800E
  | .skipIfRegistersNotEqual _ _ => 0x9000
  | .setIndex _ => 0xA000
  | .jumpWithOffset _ => 0xB000
  | .andRandom _ _ => 0xC000
  | .drawSprite _ _ _ => 0xD000
  | .skipIfKeyPressed _ => 0xE09E
  | .skipIfKeyNotPressed _ => 0xE0A1
  | .getDelayTimer _ => 0xF007
  | .getKey _ => 0xF00A
  | .setDelayTimer _ => 0xF015
  | .setSoundTimer _ => 0xF018
  | .addToIndex _ => 0xF01E
  | .setIndexToFontGlyph _ => 0xF029
  | .storeBcd _ => 0xF033
  | .dumpRegisters _ => 0xF055
  | .loadRegisters _ => 0xF065

/-- `(w & mask) = match` for the word w of the instruction (R83). -/
def Statement (i : Instr) : Prop := encode i &&& mask i = pattern i

theorem nnn_and (op : Nibble) (nnn : Addr12) : wordNNN op nnn &&& 0xF000 = wordNNN op 0 := by
  apply BitVec.eq_of_getLsbD_eq
  intro k hk
  rw [BitVec.getLsbD_and, getLsbD_wordNNN, getLsbD_wordNNN]
  interval_cases k <;> simp

theorem xnn_and_op (op : Nibble) (x : Reg) (nn : Byte) : wordXNN op x nn &&& 0xF000 = wordXNN op 0 0 := by
  apply BitVec.eq_of_getLsbD_eq
  intro k hk
  rw [BitVec.getLsbD_and, getLsbD_wordXNN, getLsbD_wordXNN]
  interval_cases k <;> simp [regBits]

theorem xnn_and_low (op : Nibble) (x : Reg) (nn : Byte) : wordXNN op x nn &&& 0xF0FF = wordXNN op 0 nn := by
  apply BitVec.eq_of_getLsbD_eq
  intro k hk
  rw [BitVec.getLsbD_and, getLsbD_wordXNN, getLsbD_wordXNN]
  interval_cases k <;> simp [regBits]

theorem xyn_and_op (op : Nibble) (x y : Reg) (n : Nibble) : wordXYN op x y n &&& 0xF000 = wordXYN op 0 0 0 := by
  apply BitVec.eq_of_getLsbD_eq
  intro k hk
  rw [BitVec.getLsbD_and, getLsbD_wordXYN, getLsbD_wordXYN]
  interval_cases k <;> simp [regBits]

theorem xyn_and_ends (op : Nibble) (x y : Reg) (n : Nibble) : wordXYN op x y n &&& 0xF00F = wordXYN op 0 0 n := by
  apply BitVec.eq_of_getLsbD_eq
  intro k hk
  rw [BitVec.getLsbD_and, getLsbD_wordXYN, getLsbD_wordXYN]
  interval_cases k <;> simp [regBits]

theorem systemCallStub (nnn : Addr12) : Statement (.systemCallStub nnn) :=
  (nnn_and 0x0 nnn).trans rfl

theorem clearDisplay : Statement .clearDisplay := by
  unfold Statement
  decide

theorem ret : Statement .ret := by
  unfold Statement
  decide

theorem goto (nnn : Addr12) : Statement (.goto nnn) :=
  (nnn_and 0x1 nnn).trans rfl

theorem call (nnn : Addr12) : Statement (.call nnn) :=
  (nnn_and 0x2 nnn).trans rfl

theorem skipIfEqual (x : Reg) (nn : Byte) : Statement (.skipIfEqual x nn) :=
  (xnn_and_op 0x3 x nn).trans rfl

theorem skipIfNotEqual (x : Reg) (nn : Byte) : Statement (.skipIfNotEqual x nn) :=
  (xnn_and_op 0x4 x nn).trans rfl

theorem skipIfRegistersEqual (x : Reg) (y : Reg) : Statement (.skipIfRegistersEqual x y) :=
  (xyn_and_op 0x5 x y 0x0).trans rfl

theorem setRegister (x : Reg) (nn : Byte) : Statement (.setRegister x nn) :=
  (xnn_and_op 0x6 x nn).trans rfl

theorem addImmediate (x : Reg) (nn : Byte) : Statement (.addImmediate x nn) :=
  (xnn_and_op 0x7 x nn).trans rfl

theorem assignRegister (x : Reg) (y : Reg) : Statement (.assignRegister x y) :=
  (xyn_and_ends 0x8 x y 0x0).trans rfl

theorem or (x : Reg) (y : Reg) : Statement (.or x y) :=
  (xyn_and_ends 0x8 x y 0x1).trans rfl

theorem and (x : Reg) (y : Reg) : Statement (.and x y) :=
  (xyn_and_ends 0x8 x y 0x2).trans rfl

theorem xor (x : Reg) (y : Reg) : Statement (.xor x y) :=
  (xyn_and_ends 0x8 x y 0x3).trans rfl

theorem addRegisters (x : Reg) (y : Reg) : Statement (.addRegisters x y) :=
  (xyn_and_ends 0x8 x y 0x4).trans rfl

theorem subtractRegisters (x : Reg) (y : Reg) : Statement (.subtractRegisters x y) :=
  (xyn_and_ends 0x8 x y 0x5).trans rfl

theorem shiftRight (x : Reg) : Statement (.shiftRight x) :=
  (xyn_and_ends 0x8 x 0 0x6).trans rfl

theorem reverseSubtract (x : Reg) (y : Reg) : Statement (.reverseSubtract x y) :=
  (xyn_and_ends 0x8 x y 0x7).trans rfl

theorem shiftLeft (x : Reg) : Statement (.shiftLeft x) :=
  (xyn_and_ends 0x8 x 0 0xE).trans rfl

theorem skipIfRegistersNotEqual (x : Reg) (y : Reg) : Statement (.skipIfRegistersNotEqual x y) :=
  (xyn_and_op 0x9 x y 0x0).trans rfl

theorem setIndex (nnn : Addr12) : Statement (.setIndex nnn) :=
  (nnn_and 0xA nnn).trans rfl

theorem jumpWithOffset (nnn : Addr12) : Statement (.jumpWithOffset nnn) :=
  (nnn_and 0xB nnn).trans rfl

theorem andRandom (x : Reg) (nn : Byte) : Statement (.andRandom x nn) :=
  (xnn_and_op 0xC x nn).trans rfl

theorem drawSprite (x : Reg) (y : Reg) (n : Nibble) : Statement (.drawSprite x y n) :=
  (xyn_and_op 0xD x y n).trans rfl

theorem skipIfKeyPressed (x : Reg) : Statement (.skipIfKeyPressed x) :=
  (xnn_and_low 0xE x 0x9E).trans rfl

theorem skipIfKeyNotPressed (x : Reg) : Statement (.skipIfKeyNotPressed x) :=
  (xnn_and_low 0xE x 0xA1).trans rfl

theorem getDelayTimer (x : Reg) : Statement (.getDelayTimer x) :=
  (xnn_and_low 0xF x 0x07).trans rfl

theorem getKey (x : Reg) : Statement (.getKey x) :=
  (xnn_and_low 0xF x 0x0A).trans rfl

theorem setDelayTimer (x : Reg) : Statement (.setDelayTimer x) :=
  (xnn_and_low 0xF x 0x15).trans rfl

theorem setSoundTimer (x : Reg) : Statement (.setSoundTimer x) :=
  (xnn_and_low 0xF x 0x18).trans rfl

theorem addToIndex (x : Reg) : Statement (.addToIndex x) :=
  (xnn_and_low 0xF x 0x1E).trans rfl

theorem setIndexToFontGlyph (x : Reg) : Statement (.setIndexToFontGlyph x) :=
  (xnn_and_low 0xF x 0x29).trans rfl

theorem storeBcd (x : Reg) : Statement (.storeBcd x) :=
  (xnn_and_low 0xF x 0x33).trans rfl

theorem dumpRegisters (x : Reg) : Statement (.dumpRegisters x) :=
  (xnn_and_low 0xF x 0x55).trans rfl

theorem loadRegisters (x : Reg) : Statement (.loadRegisters x) :=
  (xnn_and_low 0xF x 0x65).trans rfl

end Sys2Proof.Laws.TableRow
end

