-- ==== Sys2Proof/Laws/Step.lean ====
section
/-! SUPPORT. What one step can do, said once. -/

namespace Sys2Proof.Machine

/-- All that a step can do (R102). -/
theorem step_spec (s : State) :
    (s.fault.isSome ∧ step s = .next s) ∨
      (s.fault = none ∧ ∃ x, s.wait = some x ∧ step s = .next (s.beginSlot.poll x)) ∨
      (s.fault = none ∧ s.wait = none ∧ step s = s.beginSlot.cycle) := by
  rcases hf : s.fault with _ | f
  · right
    rcases hw : s.wait with _ | x
    · exact .inr ⟨rfl, rfl, by simp [step, State.runSlot, State.slotBody, hf, hw]⟩
    · exact .inl ⟨rfl, x, rfl, by simp [step, State.runSlot, State.slotBody, hf, hw]⟩
  · exact .inl ⟨rfl, by simp [step, State.runSlot, hf]⟩

end Sys2Proof.Machine
end

