-- ==== Sys2Proof/Tests/Slice0.lean ====
section
/-! SUPPORT. The model's own tests. Expected results are taken from spec/95_test_vectors.md (the id is in each test's comment) or
worked by hand from the rule named. -/

namespace Sys2Proof.Tests

open Sys2Proof.Machine

/-! ### WellFormed: an ill-formed term for each check (30_encoding.md R78) -/

theorem test_wf_refuses_stub_E0 : (Instr.systemCallStub 0x0E0).wf = false := by decide
theorem test_wf_refuses_stub_EE : (Instr.systemCallStub 0xFEE).wf = false := by decide
theorem test_wf_accepts_stub : (Instr.systemCallStub 0x0E1).wf = true := by decide

/-! ### Decoding, one word per constructor written out from R83's patterns, and the vectors T1 to T18 -/

/-- What the decoder reads from a 16-bit word; none where it refuses. -/
def dec (w : Word) : Option Instr := (decodeWord w).toOption

theorem test_decode_systemCallStub : dec 0b0000_0001_0010_0011 = some (.systemCallStub 0x123) := by decide
theorem test_decode_clearDisplay : dec 0b0000_0000_1110_0000 = some .clearDisplay := by decide
theorem test_decode_ret : dec 0b0000_0000_1110_1110 = some .ret := by decide
theorem test_decode_goto : dec 0b0001_0010_0010_1000 = some (.goto 0x228) := by decide
theorem test_decode_call : dec 0b0010_0011_0000_0000 = some (.call 0x300) := by decide
theorem test_decode_skipIfEqual : dec 0b0011_0011_0001_0010 = some (.skipIfEqual 3 0x12) := by decide
theorem test_decode_skipIfNotEqual : dec 0b0100_0011_0000_0001 = some (.skipIfNotEqual 3 0x01) := by decide
theorem test_decode_skipIfRegistersEqual : dec 0b0101_0001_0010_0111 = some (.skipIfRegistersEqual 1 2) := by decide
theorem test_decode_setRegister : dec 0b0110_1010_0000_1011 = some (.setRegister 0xA 0x0B) := by decide
theorem test_decode_addImmediate : dec 0b0111_0000_0000_0101 = some (.addImmediate 0 5) := by decide
theorem test_decode_assignRegister : dec 0b1000_0001_0010_0000 = some (.assignRegister 1 2) := by decide
theorem test_decode_or : dec 0b1000_0001_0010_0001 = some (.or 1 2) := by decide
theorem test_decode_and : dec 0b1000_0001_0010_0010 = some (.and 1 2) := by decide
theorem test_decode_xor : dec 0b1000_0001_0010_0011 = some (.xor 1 2) := by decide
theorem test_decode_addRegisters : dec 0b1000_0001_0010_0100 = some (.addRegisters 1 2) := by decide
theorem test_decode_subtractRegisters : dec 0b1000_0001_0010_0101 = some (.subtractRegisters 1 2) := by decide
theorem test_decode_shiftRight : dec 0b1000_0001_0010_0110 = some (.shiftRight 1) := by decide
theorem test_decode_reverseSubtract : dec 0b1000_0001_0010_0111 = some (.reverseSubtract 1 2) := by decide
theorem test_decode_shiftLeft : dec 0b1000_0001_0010_1110 = some (.shiftLeft 1) := by decide
theorem test_decode_skipIfRegistersNotEqual : dec 0b1001_1010_1011_0001 = some (.skipIfRegistersNotEqual 0xA 0xB) := by decide
theorem test_decode_setIndex : dec 0b1010_0010_1111_0000 = some (.setIndex 0x2F0) := by decide
theorem test_decode_jumpWithOffset : dec 0b1011_1111_1111_1111 = some (.jumpWithOffset 0xFFF) := by decide
theorem test_decode_andRandom : dec 0b1100_0011_0000_1111 = some (.andRandom 3 0x0F) := by decide
theorem test_decode_drawSprite : dec 0b1101_1010_1011_0101 = some (.drawSprite 0xA 0xB 5) := by decide
theorem test_decode_skipIfKeyPressed : dec 0b1110_0101_1001_1110 = some (.skipIfKeyPressed 5) := by decide
theorem test_decode_skipIfKeyNotPressed : dec 0b1110_0101_1010_0001 = some (.skipIfKeyNotPressed 5) := by decide
theorem test_decode_getDelayTimer : dec 0b1111_0011_0000_0111 = some (.getDelayTimer 3) := by decide
theorem test_decode_getKey : dec 0b1111_0010_0000_1010 = some (.getKey 2) := by decide
theorem test_decode_setDelayTimer : dec 0b1111_0001_0001_0101 = some (.setDelayTimer 1) := by decide
theorem test_decode_setSoundTimer : dec 0b1111_0001_0001_1000 = some (.setSoundTimer 1) := by decide
theorem test_decode_addToIndex : dec 0b1111_0010_0001_1110 = some (.addToIndex 2) := by decide
theorem test_decode_setIndexToFontGlyph : dec 0b1111_0001_0010_1001 = some (.setIndexToFontGlyph 1) := by decide
theorem test_decode_storeBcd : dec 0b1111_0001_0011_0011 = some (.storeBcd 1) := by decide
theorem test_decode_dumpRegisters : dec 0b1111_0010_0101_0101 = some (.dumpRegisters 2) := by decide
theorem test_decode_loadRegisters : dec 0b1111_0010_0110_0101 = some (.loadRegisters 2) := by decide
/-- T1, T3, T5, T6 -/
theorem test_decode_group0 : dec 0x0000 = some (.systemCallStub 0) ∧ dec 0x01E0 = some .clearDisplay ∧ dec 0x0FEE = some .ret ∧
    dec 0x00E1 = some (.systemCallStub 0x0E1) := by decide
/-- T11, T12, T14, T16, T17, P5 -/
theorem test_decode_illegal : [0x8008, 0x800F, 0x800D, 0xE0A0, 0xE1FF, 0xF075, 0xFFFF, 0xF090].all
    (fun w => decodeWord w matches .error (.unknownOpcode _)) := by decide
theorem test_decode_bytes_big_endian : (decode [0x12, 0x28, 0x60]).toOption = some (.goto 0x228, [0x60]) := by decide
theorem test_decode_truncated : (decode [0x12]).toOption = none := by decide
theorem test_encode_ignored_nibbles_zero : encode (.shiftRight 1) = 0x8106 ∧ encode (.skipIfRegistersEqual 1 2) = 0x5120 ∧
    encode .clearDisplay = 0x00E0 := by decide
theorem test_decodeTableWord : decodeTableWord 16 0xF265 = some (.loadRegisters 2) ∧ decodeTableWord 16 0x8008 = none := by decide

/-! ### One step on a small state -/

/-- The state after an outcome. -/
def after : Host.Outcome State Fault Refusal → Option State
  | .next t => some t
  | .fault _ => none
  | .refused _ => none

/-- The reset state with the first registers given. -/
def regs (bs : List Byte) : State := State.reset.loadRegs ((regsUpTo 15).zip bs)

/-- One step from s with the word w at its PC. -/
def stepWord (s : State) (w : Nat) : Option State := after (step (s.withFetchWord 16 w))

/-- The set cells of the columns and rows given. -/
def lit (t : State) (cols rows : List Nat) : List (Nat × Nat) :=
  (rows.flatMap (fun y => cols.map (fun x => (x, y)))).filter (fun c => t.fb.get c.1 c.2)

/-- T157: construction's memory, from the map of R52. -/
theorem test_reset_memory : [0x000, 0x04F, 0x050, 0x051, 0x09B, 0x09F, 0x0A0, 0x200, 0xFFF].map State.reset.readByte =
    [0, 0, 0xF0, 0x90, 0xF0, 0x80, 0, 0, 0] := by decide
/-- T30 -/
theorem test_systemCallStub : stepWord State.reset 0x0123 = some ((State.reset.withFetchWord 16 0x0123).countSlot.setPc 0x202) := by
  decide
/-- T31 -/
theorem test_ret_pops : (stepWord (State.reset.push 0x202 |>.setPc 0x300) 0x00EE).map (fun t => (t.pc, t.stack)) = some (0x202, []) := by
  decide
/-- T33: the policy of a return on an empty stack; T32's no-op is the witness of the statement about it. -/
theorem test_ret_empty_fault :
    (stepWord { State.reset with cfg := { Config.standard with emptyRet := .fault } } 0x00EE).map (fun t => (t.pc, t.fault)) =
      some (0x202, some ⟨.emptyStackReturn, 0x200⟩) := by decide
/-- T34 -/
theorem test_goto : (stepWord State.reset 0x1228).map (·.pc) = some 0x228 := by decide
/-- T35 -/
theorem test_call : (stepWord State.reset 0x2300).map (fun t => (t.pc, t.stack)) = some (0x300, [0x202]) := by decide
/-- T36 -/
theorem test_call_full : (stepWord { State.reset with cfg := { Config.standard with stackDepth := some 2 }, stack := [1, 2] } 0x2300).map
    (fun t => (t.pc, t.stack, t.fault)) = some (0x202, [1, 2], some ⟨.stackOverflow 2, 0x200⟩) := by decide
/-- T39 -/
theorem test_jumpWithOffset : (stepWord (regs [0x90]) 0xBF80).map (·.pc) = some 0x1010 := by decide
/-- T40 -/
theorem test_jumpWithOffset_highest : (stepWord (regs [0xFF]) 0xBFFF).map (·.pc) = some 0x10FE := by decide
/-- T50, T51 -/
theorem test_skipIfEqual : (stepWord (regs [0, 5]) 0x3105).map (·.pc) = some 0x204 ∧ (stepWord (regs [0, 4]) 0x3105).map (·.pc) = some 0x202 := by
  decide
/-- T52, T53 -/
theorem test_skipIfNotEqual : (stepWord (regs [0, 5]) 0x4105).map (·.pc) = some 0x202 ∧ (stepWord (regs [0, 4]) 0x4105).map (·.pc) = some 0x204 := by
  decide
/-- T54 -/
theorem test_skipIfRegistersEqual : (stepWord (regs [0, 5, 5]) 0x5127).map (·.pc) = some 0x204 ∧
    (stepWord (regs [0, 5, 6]) 0x5127).map (·.pc) = some 0x202 := by decide
/-- T55, T56 -/
theorem test_skipIfRegistersNotEqual : (stepWord (regs [0, 5, 6]) 0x9120).map (·.pc) = some 0x204 ∧
    (stepWord (regs [0, 6, 6]) 0x9120).map (·.pc) = some 0x202 := by decide
/-- T60 -/
theorem test_setRegister : (stepWord State.reset 0x600A).map (·.reg 0) = some 0x0A := by decide
/-- T61 -/
theorem test_addImmediate_no_flag : (stepWord ((regs [0, 2]).setReg 15 7) 0x71FF).map (fun t => (t.reg 1, t.reg 15)) = some (1, 7) := by
  decide
/-- T62 -/
theorem test_assignRegister : (stepWord (regs [0, 0, 0x42]) 0x8120).map (fun t => (t.reg 1, t.reg 2)) = some (0x42, 0x42) := by decide
/-- T63 -/
theorem test_or_no_flag : (stepWord ((regs [0, 0x0F, 0xF0]).setReg 15 9) 0x8121).map (fun t => (t.reg 1, t.reg 15)) = some (0xFF, 9) := by
  decide
/-- T64 -/
theorem test_and : (stepWord (regs [0, 0x3C, 0x0F]) 0x8122).map (·.reg 1) = some 0x0C := by decide
/-- T65, T66 -/
theorem test_xor : (stepWord (regs [0, 0x3C, 0x0F]) 0x8123).map (·.reg 1) = some 0x33 ∧ (stepWord (regs [0, 0x3C]) 0x8113).map (·.reg 1) = some 0 := by
  decide
/-- T67, T68 -/
theorem test_addRegisters : (stepWord (regs [0, 0xFF, 1]) 0x8124).map (fun t => (t.reg 1, t.reg 15)) = some (0, 1) ∧
    (stepWord (regs [0, 0x80, 0x7F]) 0x8124).map (fun t => (t.reg 1, t.reg 15)) = some (0xFF, 0) := by decide
/-- T69, T70 -/
theorem test_addRegisters_with_VF : (stepWord ((regs [0, 2]).setReg 15 0xFF) 0x8F14).map (·.reg 15) = some 1 ∧
    (stepWord ((regs [0, 0x10]).setReg 15 1) 0x81F4).map (fun t => (t.reg 1, t.reg 15)) = some (0x11, 0) := by decide
/-- T72, T73 -/
theorem test_subtractRegisters : (stepWord (regs [0, 3, 3]) 0x8125).map (fun t => (t.reg 1, t.reg 15)) = some (0, 0) ∧
    (stepWord (regs [0, 3, 5]) 0x8125).map (fun t => (t.reg 1, t.reg 15)) = some (0xFE, 0) := by decide
/-- T71, T74 -/
theorem test_subtractRegisters_flag : (stepWord (regs [0, 5, 3]) 0x8125).map (fun t => (t.reg 1, t.reg 15)) = some (2, 1) ∧
    (stepWord ((regs [0, 0, 3]).setReg 15 9) 0x8F25).map (·.reg 15) = some 6 := by decide
/-- T75, T77 -/
theorem test_reverseSubtract : (stepWord (regs [0, 3, 5]) 0x8127).map (fun t => (t.reg 1, t.reg 15)) = some (2, 1) ∧
    (stepWord (regs [0, 5, 3]) 0x8127).map (fun t => (t.reg 1, t.reg 15)) = some (0xFE, 0) := by decide
/-- T78, T80, T81 -/
theorem test_shiftRight : (stepWord (regs [0, 5]) 0x8106).map (fun t => (t.reg 1, t.reg 15)) = some (2, 1) ∧
    (stepWord (regs [0, 4, 0xFF]) 0x8126).map (fun t => (t.reg 1, t.reg 2, t.reg 15)) = some (2, 0xFF, 0) ∧
    (stepWord (State.reset.setReg 15 5) 0x8F06).map (·.reg 15) = some 2 := by decide
/-- T79 -/
theorem test_shiftRight_uncommitted : (stepWord { regs [0, 5] with cfg := { Config.standard with shiftCommit := false } } 0x8106).map
    (fun t => (t.reg 1, t.reg 15)) = some (5, 1) := by decide
/-- T82, T83, T84 -/
theorem test_shiftLeft : (stepWord (regs [0, 0x81]) 0x810E).map (fun t => (t.reg 1, t.reg 15)) = some (2, 1) ∧
    (stepWord (regs [0, 0x40]) 0x810E).map (fun t => (t.reg 1, t.reg 15)) = some (0x80, 0) ∧
    (stepWord (State.reset.setReg 15 0x81) 0x8F0E).map (·.reg 15) = some 2 := by decide
/-- T85 -/
theorem test_shiftLeft_uncommitted : (stepWord { (State.reset.setReg 15 0x81) with cfg := { Config.standard with shiftCommit := false } } 0x8F0E).map
    (·.reg 15) = some 1 := by decide
/-- T86, T87 -/
theorem test_andRandom : (stepWord { State.reset with randomAnswers := [0xAB, 0x11] } 0xC10F).map (fun t => (t.reg 1, t.randomAnswers)) =
      some (0x0B, [0x11]) ∧
    (stepWord { State.reset with randomAnswers := [0xAB] } 0xC100).map (fun t => (t.reg 1, t.requests)) = some (0, 1) := by decide
/-- T90 -/
theorem test_setIndex : (stepWord State.reset 0xA2F0).map (·.i) = some 0x2F0 := by decide
/-- T92, T93 -/
theorem test_addToIndex : (stepWord ((regs [0, 2]).setIndex 0xFFFF) 0xF11E).map (fun t => (t.i, t.reg 15)) = some (1, 0) ∧
    (stepWord ((regs [0, 1]).setIndex 0x0FFF) 0xF11E).map (fun t => (t.i, t.fault)) = some (0x1000, none) := by decide
/-- E6, T94 -/
theorem test_setIndexToFontGlyph : (stepWord (regs [0, 0x1A]) 0xF129).map (·.i) = some 0x082 ∧
    (stepWord (regs [0, 0xFF]) 0xF129).map (·.i) = some 0x09B := by decide
/-- E3, T97 -/
theorem test_storeBcd : (stepWord ((regs [0, 234]).setIndex 0x300) 0xF133).map (·.readBytes [0x300, 0x301, 0x302]) = some [2, 3, 4] ∧
    (stepWord { (regs [0, 123]).setIndex 0xFFE with cfg := { Config.standard with addrPolicy := .mask } } 0xF133).map
      (·.readBytes [0xFFE, 0xFFF, 0x000]) = some [1, 2, 3] := by decide
/-- T96 -/
theorem test_storeBcd_fault : (stepWord ((regs [0, 100]).setIndex 0xFFE) 0xF133).map (fun t => (t.fault, t.pc, t.readBytes [0xFFE, 0xFFF])) =
    some (some ⟨.memoryRange 0x1000 .write, 0x200⟩, 0x202, [0, 0]) := by decide
/-- T98 with x = 3 -/
theorem test_dumpRegisters : (stepWord ((regs [1, 2, 3, 4, 5]).setIndex 0xFFC) 0xF355).map
    (fun t => (t.readBytes [0xFFB, 0xFFC, 0xFFD, 0xFFE, 0xFFF], t.i, t.fault)) = some ([0, 1, 2, 3, 4], 0xFFC, none) := by decide
/-- T99 -/
theorem test_dumpRegisters_fault : (stepWord ((regs [1, 2]).setIndex 0xFF1) 0xFF55).map (fun t => (t.fault, t.readByte 0xFF1)) =
    some (some ⟨.memoryRange 0x1000 .write, 0x200⟩, 0) := by decide
/-- T100 -/
theorem test_loadRegisters : (stepWord (State.reset.setIndex 0x050) 0xFF65).map (fun t => (t.v.toList, t.i)) =
    some ([0xF0, 0x90, 0x90, 0x90, 0xF0, 0x20, 0x60, 0x20, 0x20, 0x70, 0xF0, 0x10, 0xF0, 0x80, 0xF0, 0xF0], 0x050) := by decide
/-- T110 -/
theorem test_clearDisplay : (stepWord ((State.reset.setReg 15 3).setDisplay (State.reset.fb.put 0 0 true)) 0x00E0).map
    (fun t => (t.fb.get 0 0, t.reg 15)) = some (false, 3) := by decide
/-- T111 -/
theorem test_drawSprite_clips : (stepWord (((regs [62, 30]).setIndex 0x300).writeBytes [(0x300, 0xFF), (0x301, 0x81), (0x302, 0xFF)]) 0xD013).map
    (fun t => (lit t [0, 1, 60, 61, 62, 63] [0, 29, 30, 31], t.reg 15)) = some ([(62, 30), (63, 30), (62, 31)], 0) := by decide
/-- T119 on one row: cells 4 to 7 cleared, 8 to 11 set -/
theorem test_drawSprite_collides :
    (stepWord ((((regs [4, 0]).setIndex 0x300).writeByte 0x300 0xFF).setDisplay (State.reset.fb.put 4 0 true)) 0xD011).map
      (fun t => (lit t [3, 4, 5, 11, 12] [0, 1], t.reg 15)) = some ([(5, 0), (11, 0)], 1) := by decide
/-- T130, T131 -/
theorem test_skipIfKeyPressed : (stepWord { regs [0, 0, 0, 0, 0, 0x0A] with keyAnswers := [true] } 0xE59E).map (·.pc) = some 0x204 ∧
    (stepWord { regs [0, 0, 0, 0, 0, 0x0A] with keyAnswers := [false] } 0xE59E).map (·.pc) = some 0x202 := by decide
/-- T132, T133 -/
theorem test_skipIfKeyNotPressed : (stepWord { regs [0, 0, 0, 0, 0, 0x0A] with keyAnswers := [true] } 0xE5A1).map (·.pc) = some 0x202 ∧
    (stepWord { regs [0, 0, 0, 0, 0, 0x0A] with keyAnswers := [false] } 0xE5A1).map (·.pc) = some 0x204 := by decide
/-- T135; the step does not begin a tick, so that DT is not counted down first -/
theorem test_getDelayTimer : (stepWord { State.reset with dt := 0x3C, slot := 1 } 0xF307).map (·.reg 3) = some 0x3C := by decide
/-- T136 -/
theorem test_getKey : (stepWord (regs [0, 0, 9]) 0xF20A).map (fun t => (t.wait, t.pc, t.reg 2)) = some (some 2, 0x202, 9) := by decide
/-- T23, slots 2 and 3; T139 -/
theorem test_poll : (after (step { State.reset with wait := some 3, pendingAnswers := [none, some 5] })).map (fun t => (t.wait, t.reg 3, t.pc)) =
      some (some 3, 0, 0x200) ∧
    (after (step { State.reset with wait := some 15, pendingAnswers := [some 4] })).map (fun t => (t.wait, t.reg 15, t.pc)) = some (none, 4, 0x200) := by
  decide
/-- T137 -/
theorem test_setDelayTimer : (stepWord (regs [0, 3]) 0xF115).map (·.dt) = some 3 := by decide
/-- T138 -/
theorem test_setSoundTimer : (stepWord (regs [0, 0x10]) 0xF118).map (·.soundTimer) = some 0x10 := by decide

/-! ### Slots, fetch and faults -/

/-- T21, T22: the decrement comes before the tick's first slot, and floors at 0; E7 -/
theorem test_timers_first_slot : (stepWord { State.reset with dt := 5, st := 0 } 0x0000).map (fun t => (t.dt, t.st, t.slot)) = some (4, 0, 1) := by
  decide
theorem test_timers_later_slot : (stepWord { State.reset with dt := 5, slot := 15 } 0x0000).map (fun t => (t.dt, t.slot)) = some (5, 0) := by
  decide
/-- T150 -/
theorem test_fetch_fault : (after (step (State.reset.setPc 0xFFF))).map (fun t => (t.fault, t.pc)) =
    some (some ⟨.memoryRange 0x1000 .fetch, 0xFFF⟩, 0xFFF) := by decide
/-- R105: PC = 0xFFFF under mask -/
theorem test_fetch_mask : (after (step { (State.reset.writeBytes [(0xFFF, 0x12), (0x000, 0x28)]).setPc 0xFFFF with
    cfg := { Config.standard with addrPolicy := .mask } })).map (·.pc) = some 0x228 := by decide
/-- T151, T24 -/
theorem test_unknown_opcode : (stepWord { State.reset with slot := 1 } 0x8008).map (fun t => (t.fault, t.pc, t.slot)) =
    some (some ⟨.unknownOpcode 0x8008, 0x200⟩, 0x202, 0) := by decide
/-- T25, T156 -/
theorem test_faulted_step : (after (step { State.reset with dt := 5, fault := some ⟨.unknownOpcode 0x8008, 0x202⟩ })).map (·.dt) = some 5 := by
  decide
/-- T26: CYCLES_PER_TICK = 1; E8's first instruction -/
theorem test_tick_of_one_slot : (after ({ State.reset.placeInstruction [0x60, 0x0A] with
    cfg := { Config.standard with cyclesPerTick := 1 } }).tick).map (fun t => (t.reg 0, t.pc)) = some (0x0A, 0x202) := by decide
/-- T152 with R255's bound, T153's start -/
theorem test_construct : (after (State.construct Config.standard [0x60, 0x0A])).map (fun t => (t.readBytes [0x200, 0x201, 0x202], t.pc)) =
    some ([0x60, 0x0A, 0], 0x200) := by decide

/-! ### Witnesses: for each statement of Certificates/Slice0/Obligations.lean that has hypotheses, a state and operands that meet all
of them, one for each clause, at the boundary where there is one -/

/-- The reset state with the address policy, I and V[0] given. -/
def stateAt (p : AddrPolicy) (i : Word) (v0 : Byte) : State :=
  { State.reset.setReg 0 v0 with cfg := { Config.standard with addrPolicy := p }, i := i }

/-- The reset state at PC a with the word w there, in a slot that is not the tick's first. -/
def placed (p : AddrPolicy) (a : Word) (w : Nat) : State := { (stateAt p 0 0).setPc a with slot := 1 }.withFetchWord 16 w

theorem witness_DecodeEncodeRoundTrip : (Instr.systemCallStub 0xFE1).wf = true ∧ (Instr.drawSprite 15 15 15).wf = true := by decide
theorem witness_OnlyIgnoredBitsAreDropped : decodeWord 0x8F56 = .ok (.shiftRight 15) ∧
    0x8FF6 &&& (Instr.shiftRight 15).decodedBits = encode (.shiftRight 15) := ⟨rfl, rfl⟩
theorem witness_IllegalWordsAreExactlyThese : decodeWord 0x8008 = .error (.unknownOpcode 0x8008) ∧
    decodeWord 0xE09F = .error (.unknownOpcode 0xE09F) ∧ decodeWord 0xFF66 = .error (.unknownOpcode 0xFF66) := ⟨rfl, rfl, rfl⟩
/-- The highest PC that fetches under each policy. -/
theorem witness_StepRunsDecodedInstruction :
    let s := placed .fault 0xFFE 0x6A05
    let t := placed .mask 0xFFFF 0x6A05
    (s.fault = none ∧ s.wait = none ∧ s.fetchable ∧ decodeWord s.nextWord = .ok (.setRegister 10 5)) ∧
      (t.fault = none ∧ t.wait = none ∧ t.fetchable ∧ decodeWord t.nextWord = .ok (.setRegister 10 5)) := by
  refine ⟨⟨?_, ?_, ?_, rfl⟩, ?_, ?_, ?_, rfl⟩ <;> decide
theorem witness_PlacedInstructionRunsNext : decodeWord (BitVec.ofNat 16 0x00EE) = .ok .ret ∧
    (State.reset.setPc 0xFFE).fetchable ∧ ¬ (State.reset.setPc 0xFFF).fetchable := ⟨rfl, by decide, by decide⟩
theorem witness_WaitingSlotPolls :
    let s : State := { State.reset with wait := some 15, pendingAnswers := [some 15] }
    let t : State := { State.reset with wait := some 15, pendingAnswers := [none] }
    (s.fault = none ∧ s.wait = some 15 ∧ s.pendingAnswer = some 15) ∧ t.fault = none ∧ t.wait = some 15 ∧ t.pendingAnswer = none := by
  decide
theorem witness_FetchOutOfRangeFaults :
    let s := State.reset.setPc 0xFFF
    let t := State.reset.setPc 0x1000
    (s.fault = none ∧ s.wait = none ∧ s.cfg.addrPolicy = .fault ∧ 0xFFF ≤ s.pc.toNat) ∧
      t.fault = none ∧ t.wait = none ∧ t.cfg.addrPolicy = .fault ∧ 0xFFF ≤ t.pc.toNat := by decide
theorem witness_UnknownWordFaults :
    let s := placed .fault 0xFFE 0x8008
    s.fault = none ∧ s.wait = none ∧ s.fetchable ∧ decodeWord s.nextWord = .error (.unknownOpcode s.nextWord) := by
  refine ⟨?_, ?_, ?_, rfl⟩ <;> decide
theorem witness_FaultedBlockIsInert :
    ({ State.reset with fault := some ⟨.emptyStackReturn, 0x200⟩ } : State).fault = some ⟨.emptyStackReturn, 0x200⟩ := rfl
theorem witness_TickIsItsBudgetOfSteps : State.reset.slot = 0 ∧ 1 ≤ State.reset.cfg.cyclesPerTick := by decide
/-- The last place under the fault policy, and one that wraps under mask: 0x61 0x07 is stored after the FX55 itself. -/
theorem witness_StoredWordRunsNext :
    let s := ((placed .fault 0xFFC 0xF155).setReg 0 0x61 |>.setReg 1 0x07).setIndex 0xFFE
    let u := ((placed .mask 0xFFFE 0xFF55).setReg 0 0x61 |>.setReg 1 0x07).setIndex 0
    (s.fault = none ∧ s.wait = none ∧ s.fetchable ∧ decodeWord s.nextWord = .ok (.dumpRegisters 1) ∧ (1 : Reg) ≤ 1 ∧ s.i = s.pc + 2 ∧
      s.indexInRange ((1 : Reg).val + 1) ∧ decodeWord (wordOfBytes (s.reg 0) (s.reg 1)) = .ok (.setRegister 1 7)) ∧
    (u.fault = none ∧ u.wait = none ∧ u.fetchable ∧ decodeWord u.nextWord = .ok (.dumpRegisters 15) ∧ (1 : Reg) ≤ 15 ∧ u.i = u.pc + 2 ∧
      u.indexInRange ((15 : Reg).val + 1) ∧ decodeWord (wordOfBytes (u.reg 0) (u.reg 1)) = .ok (.setRegister 1 7)) := by
  refine ⟨⟨?_, ?_, ?_, rfl, ?_, ?_, ?_, rfl⟩, ?_, ?_, ?_, rfl, ?_, ?_, ?_, rfl⟩ <;> decide
theorem witness_StepKeepsInvariant :
    let s := placed .mask 0xFFFF 0x2300
    s.inv = true ∧ (after (step s)).isSome = true := by decide
theorem witness_StepKeepsConfiguration : (after (step State.reset)).isSome = true ∧
    (after ({ State.reset with cfg := { Config.standard with cyclesPerTick := 1 } }).tick).isSome = true := by decide
theorem witness_ExecuteFaultsArePrecise : (stateAt .fault 0xFFE 7).fault = none ∧
    (after (exec (.storeBcd 0) (stateAt .fault 0xFFE 7))).map (·.fault.isSome) = some true := by decide
theorem witness_InstructionsWriteOnlyTheirTable : (after (exec (.dumpRegisters 15) (stateAt .fault 0xFF0 7))).isSome = true := by decide
/-- A Faulted, a Waiting and a Running state, the last one's step to Waiting. -/
theorem witness_RunStateTransitions :
    let f : State := { State.reset with fault := some ⟨.emptyStackReturn, 0x200⟩ }
    let w : State := { State.reset with wait := some 3, pendingAnswers := [none] }
    let r := placed .fault 0x200 0xF20A
    ((after (step f)).isSome = true ∧ f.runState = .faulted) ∧ ((after (step w)).isSome = true ∧ w.runState = .waiting) ∧
      r.runState = .running ∧ (after (step r)).map (·.runState) = some .waiting := by decide
theorem witness_OnlyTheirWritersChangeThem_mem : let s := placed .fault 0x200 0xF033
    (after (step (s.setReg 0 9 |>.setIndex 0xFFD))).map (fun t => decide (t.mem ≠ s.mem)) = some true := by decide
theorem witness_OnlyTheirWritersChangeThem_index : let s := placed .fault 0x200 0xAFFF
    (after (step s)).map (fun t => decide (t.i ≠ s.i)) = some true := by decide
theorem witness_OnlyTheirWritersChangeThem_stack : let s := placed .fault 0x200 0x2300
    (after (step s)).map (fun t => decide (t.stack ≠ s.stack)) = some true := by decide
theorem witness_OnlyTheirWritersChangeThem_display : let s := placed .fault 0x200 0xD001
    (after (step (s.setIndex 0x050))).map (fun t => decide (t.fb.get 0 0 ≠ s.fb.get 0 0)) = some true := by decide
theorem witness_OnlyTheirWritersChangeThem_timers :
    let s := (placed .fault 0x200 0xF015).setReg 0 3
    let u := (placed .fault 0x200 0xF018).setReg 0 3
    (s.slot ≠ 0 ∧ (after (step s)).map (fun t => decide (t.dt ≠ s.dt)) = some true) ∧
      u.slot ≠ 0 ∧ (after (step u)).map (fun t => decide (t.st ≠ u.st)) = some true := by decide
theorem witness_NoInstructionReadsSoundTimer : (after (exec (.getDelayTimer 0) State.reset)).isSome = true ∧
    (∀ x, Instr.getDelayTimer 0 ≠ .setSoundTimer x) ∧
    (after (exec (.setSoundTimer 0) State.reset)).isSome = true ∧ ∃ x, Instr.setSoundTimer 0 = .setSoundTimer x :=
  ⟨rfl, fun _ h => (by cases h), rfl, 0, rfl⟩
theorem witness_OnlyAndRandomAsksTheRandomPort : (∀ x nn, Instr.setIndex 0 ≠ .andRandom x nn) ∧
    (after (exec (.setIndex 0) State.reset)).isSome = true := ⟨fun _ _ h => (by cases h), rfl⟩
theorem witness_ConstructionLoadsFontAndRom : (List.replicate 3584 (0 : Byte)).length ≤ 3584 ∧
    3584 < (List.replicate 3585 (0 : Byte)).length := by
  rw [List.length_replicate, List.length_replicate]
  omega
theorem witness_SystemCallStubDoesNothing : (Instr.systemCallStub 0xFFF).wf = true := by decide
theorem witness_ReturnPopsOrFollowsPolicy :
    (State.reset.push 0x202).stack = [] ++ [0x202] ∧ (State.reset.stack = [] ∧ State.reset.cfg.emptyRet = .noop) ∧
      ∃ s : State, s.stack = [] ∧ s.cfg.emptyRet = .fault :=
  ⟨rfl, ⟨rfl, rfl⟩, { State.reset with cfg := { Config.standard with emptyRet := .fault } }, rfl, rfl⟩
/-- T36 and one entry below it -/
theorem witness_CallPushesReturnAddress :
    let s : State := { State.reset with cfg := { Config.standard with stackDepth := some 2 }, stack := [1] }
    s.cfg.stackDepth ≠ some s.stack.length ∧ (s.push 2).cfg.stackDepth = some (s.push 2).stack.length := by decide
theorem witness_carry_and_greater_flags : (14 : Reg) ≠ 15 := by decide
theorem witness_ShiftsMoveOneBit : State.reset.cfg.shiftCommit = true ∧ (14 : Reg) ≠ 15 ∧
    ({ Config.standard with shiftCommit := false } : Config).shiftCommit = false := by decide
theorem witness_StoreBcdWritesDigits : (stateAt .fault 0xFFD 0).indexInRange 3 ∧ (stateAt .mask 0xFFFF 0).indexInRange 3 ∧
    ¬ (stateAt .fault 0xFFE 0).indexInRange 3 := by decide
theorem witness_DumpRegistersStoresThem : (stateAt .fault 0xFF0 0).indexInRange ((15 : Reg).val + 1) ∧
    (stateAt .mask 0xFFFF 0).indexInRange ((15 : Reg).val + 1) ∧ ¬ (stateAt .fault 0xFF1 0).indexInRange ((15 : Reg).val + 1) := by decide
theorem witness_LoadRegistersLoadsThem : (stateAt .fault 0xFFF 0).indexInRange ((0 : Reg).val + 1) ∧
    (stateAt .mask 0x1000 0).indexInRange ((0 : Reg).val + 1) ∧ ¬ (stateAt .fault 0x1000 0).indexInRange ((0 : Reg).val + 1) := by decide
theorem witness_DumpThenLoadRestores : ∃ s t u : State, s.indexInRange ((1 : Reg).val + 1) ∧ exec (.dumpRegisters 1) s = .next t ∧
    u.mem = t.mem ∧ u.cfg = t.cfg ∧ u.i = t.i :=
  ⟨stateAt .mask 0xFFF 7, ((stateAt .mask 0xFFF 7).writeBytes [(0xFFF, 7), (0, 0)]), ((stateAt .mask 0xFFF 7).writeBytes [(0xFFF, 7), (0, 0)]).setReg 0 1,
    by decide, rfl, rfl, rfl, rfl⟩
/-- The last sprite of five rows that fits under the address policy, the first that does not, and one whose rows are all clipped. -/
theorem witness_DrawSprite_range : ((stateAt .fault 0xFFB 0).indexInRange (min (5 : Nibble).toNat (32 - (stateAt .fault 0xFFB 0).spriteCoord 0))) ∧
    ¬ ((stateAt .fault 0xFFC 0).indexInRange (min (5 : Nibble).toNat (32 - (stateAt .fault 0xFFC 0).spriteCoord 0))) ∧
    ((stateAt .fault 0x1000 32).indexInRange (min (5 : Nibble).toNat (32 - (stateAt .fault 0x1000 32).spriteCoord 0))) := by decide
/-- A row of 0xF0 at (0, 0): it meets the set cell (3, 0); on a clear framebuffer it meets none. -/
theorem witness_DrawSpriteTogglesItsCells :
    let s := (stateAt .fault 0x050 0).setDisplay (State.reset.fb.put 3 0 true)
    s.spriteCovers 0 0 1 3 0 = true ∧ s.fb.get 3 0 = true ∧
      ∀ col row, col < 64 → row < 32 → (stateAt .fault 0x050 0).spriteCovers 0 0 1 col row = true → (stateAt .fault 0x050 0).fb.get col row = false := by
  refine ⟨by decide, by decide, fun col row _ _ _ => ?_⟩
  simp [Framebuffer.get, stateAt, State.reset, State.setReg]
theorem witness_DrawingTwiceRestores :
    (stateAt .fault 0xFFF 0).indexInRange (min (1 : Nibble).toNat (32 - (stateAt .fault 0xFFF 0).spriteCoord 0)) ∧
      (after (exec (.drawSprite 0 0 1) (stateAt .fault 0xFFF 0))).isSome = true := by decide
theorem witness_GetKeyStartsTheWait : State.reset.fault = none := rfl

end Sys2Proof.Tests
end

/-! ### The configuration (00_scope.md R7, 10_state.md R44): whatever answers a next state answers it with the parameters it found -/

namespace Sys2Proof.Machine

/-- Six meanings branch: a return and a call on the stack, the others on the addresses they check. Both branches end in operations
that keep the parameters, and so do the other 29 meanings, which have one answer each. -/
theorem exec_keeps_cfg {i : Instr} {s t : State} (h : exec i s = .next t) : t.cfg = s.cfg := by
  cases i
  case ret =>
    simp only [exec, execRet] at h
    split at h
    · cases h; simp
    · split at h <;> cases h <;> simp
  case call | drawSprite | storeBcd | dumpRegisters | loadRegisters =>
    simp only [exec, execCall, execDrawSprite, execStoreBcd, execDumpRegisters, execLoadRegisters] at h
    split at h <;> cases h <;> simp
  all_goals cases h; simp

theorem State.cycle_keeps_cfg {s t : State} (h : s.cycle = .next t) : t.cfg = s.cfg := by
  obtain ⟨c, -, hc⟩ | ⟨a0, a1, -, ⟨i, -, hc⟩ | ⟨e, -, hc⟩⟩ := s.cycle_spec <;> rw [hc] at h
  · cases h; simp
  · simpa using exec_keeps_cfg h
  · cases h; simp

theorem State.slotBody_keeps_cfg {s t : State} (h : s.slotBody = .next t) : t.cfg = s.cfg := by
  unfold State.slotBody at h
  split at h
  · cases h; simp
  · exact State.cycle_keeps_cfg h

theorem State.runSlots_keeps_cfg {n : Nat} {s t : State} (h : s.runSlots n = .next t) : t.cfg = s.cfg := by
  induction n generalizing s with
  | zero => cases h; rfl
  | succ n ih =>
    unfold State.runSlots at h
    split at h
    · cases h; rfl
    · split at h
      next u hu => exact (ih h).trans (State.slotBody_keeps_cfg hu)
      all_goals cases h

theorem State.tick_keeps_cfg {s t : State} (h : s.tick = .next t) : t.cfg = s.cfg := by
  unfold State.tick at h
  split at h
  · cases h; rfl
  · simpa using State.runSlots_keeps_cfg h

theorem step_keeps_cfg {s t : State} (h : step s = .next t) : t.cfg = s.cfg := by
  obtain ⟨-, hs⟩ | ⟨-, x, -, hs⟩ | ⟨-, -, hs⟩ := step_spec s <;> rw [hs] at h
  · cases h; rfl
  · cases h; simp
  · simpa using State.cycle_keeps_cfg h

/-- Settles O17: a step by what a step can do, a tick by induction on its slots. -/
theorem stepKeepsConfiguration : Obligations.StepKeepsConfiguration :=
  fun _ _ h => h.elim step_keeps_cfg State.tick_keeps_cfg

end Sys2Proof.Machine

/-! ### The frame of each operation (10_state.md R25): one rule per operation, for every row that names what the operation writes -/

namespace Sys2Proof.Machine

section
variable {w : Writes} {s t u : State}

theorem Frame.refl (w : Writes) (s : State) : Frame w s s := by constructor <;> simp

theorem Frame.trans (h₁ : Frame w s t) (h₂ : Frame w t u) : Frame w s u where
  cfg := h₂.cfg.trans h₁.cfg
  regs j hj := (h₂.regs j hj).trans (h₁.regs j hj)
  cells a ha := (h₂.cells a ha).trans (h₁.cells a ha)
  mem h := (h₂.mem h).trans (h₁.mem h)
  pc h := (h₂.pc h).trans (h₁.pc h)
  index h := (h₂.index h).trans (h₁.index h)
  delay h := (h₂.delay h).trans (h₁.delay h)
  sound h := (h₂.sound h).trans (h₁.sound h)
  stack h := (h₂.stack h).trans (h₁.stack h)
  wait h := (h₂.wait h).trans (h₁.wait h)
  fault h := ⟨(h₂.fault h).1.trans (h₁.fault h).1, (h₂.fault h).2.trans (h₁.fault h).2⟩
  display h := (h₂.display h).trans (h₁.display h)
  requests h := by
    obtain ⟨hr, hk, hp, ha⟩ := h₁.requests h
    simpa only [hr, hk, hp, ha] using h₂.requests h

theorem Frame.setReg {x : Reg} {b : Byte} (hx : x ∈ w.regs) : Frame w s (s.setReg x b) := by
  constructor
  case regs => exact fun j hj => State.reg_setReg_other _ _ _ _ (fun e => hj (e ▸ hx))
  all_goals simp

theorem Frame.setPc {a : Word} (h : w.pc = true) : Frame w s (s.setPc a) := by constructor <;> simp [h]
theorem Frame.setIndex {a : Word} (h : w.index = true) : Frame w s (s.setIndex a) := by constructor <;> simp [h]
theorem Frame.setDelay {b : Byte} (h : w.delay = true) : Frame w s (s.setDelay b) := by constructor <;> simp [h]
theorem Frame.setSound {b : Byte} (h : w.sound = true) : Frame w s (s.setSound b) := by constructor <;> simp [h]
theorem Frame.setWait {r : Option Reg} (h : w.wait = true) : Frame w s (s.setWait r) := by constructor <;> simp [h]
theorem Frame.setDisplay {g : Framebuffer} (h : w.display = true) : Frame w s (s.setDisplay g) := by
  constructor <;> simp [h]
theorem Frame.push {a : Word} (h : w.stack = true) : Frame w s (s.push a) := by constructor <;> simp [h]
theorem Frame.dropTop (h : w.stack = true) : Frame w s s.dropTop := by constructor <;> simp [h]
theorem Frame.afterRandom (h : w.requests = true) : Frame w s s.afterRandom := by constructor <;> simp [h]
theorem Frame.afterKeyQuery (h : w.requests = true) : Frame w s s.afterKeyQuery := by constructor <;> simp [h]
theorem Frame.raiseInExecute {c : Cause} (h : w.fault = true) : Frame w s (s.raiseInExecute c) := by
  constructor <;> simp [h]
theorem Frame.skipIf {c : Bool} (h : w.pc = true) : Frame w s (s.skipIf c) := by constructor <;> simp [h]

/-- R102, R103: the timers and the slot count (which a row names with the fault record) are all that the beginning of a slot writes. -/
theorem Frame.beginSlot (hd : w.delay = true) (hs : w.sound = true) (hf : w.fault = true) : Frame w s s.beginSlot := by
  constructor <;> simp [hd, hs, hf]

theorem Frame.setFlagThenResult {f r : Byte} {x : Reg} (hf : VF ∈ w.regs) (hx : x ∈ w.regs) :
    Frame w s (s.setFlagThenResult f x r) :=
  (Frame.setReg hf).trans (Frame.setReg hx)

/-- R169, R171: the shifted register belongs to the row only under SHIFT_COMMIT. -/
theorem Frame.setShift {f r : Byte} {x : Reg} (hf : VF ∈ w.regs) (hx : s.cfg.shiftCommit = true → x ∈ w.regs) :
    Frame w s (s.setShift f x r) := by
  unfold State.setShift
  split
  next h => exact Frame.setFlagThenResult hf (hx h)
  next => exact Frame.setReg hf

theorem Frame.drawCells {cells : List (Nat × Nat)} (hf : VF ∈ w.regs) (hd : w.display = true) : Frame w s (s.drawCells cells) :=
  ((Frame.setReg hf).trans (Frame.setDisplay hd)).trans (Frame.setReg hf)

theorem Frame.writeByte {a : Nat} {b : Byte} (ha : a ∈ w.cells) : Frame w s (s.writeByte a b) := by
  constructor
  case cells => exact fun k hk => State.readByte_writeByte_other _ _ _ _ (fun e => hk (e ▸ ha))
  case mem => exact fun h => absurd ha (h ▸ List.not_mem_nil)
  all_goals simp

theorem Frame.writeBytes {ws : List (Nat × Byte)} (h : ∀ p ∈ ws, p.1 ∈ w.cells) : Frame w s (s.writeBytes ws) := by
  induction ws generalizing s with
  | nil => exact Frame.refl w s
  | cons p ws ih => exact (Frame.writeByte (h p (by simp))).trans (ih fun q hq => h q (by simp [hq]))

theorem Frame.loadRegs {ls : List (Reg × Byte)} (h : ∀ l ∈ ls, l.1 ∈ w.regs) : Frame w s (s.loadRegs ls) := by
  induction ls generalizing s with
  | nil => exact Frame.refl w s
  | cons l ls ih => exact (Frame.setReg (h l (by simp))).trans (ih fun k hk => h k (by simp [hk]))

end

/-! ### The six meanings that branch: all that each can answer -/

/-- The ends of an instruction that checks the `count` bytes at I before it acts on their addresses (44_index_memory.md R196). -/
inductive State.Transfer (s : State) (count : Nat) (kind : AccessKind) (act : List Nat → State) : State → Prop where
  | faults {c : Cause} (h : s.indexed count kind = .error c) : Transfer s count kind act (s.raiseInExecute c)
  | acts {as : List Nat} (h : s.indexed count kind = .ok as) : Transfer s count kind act (act as)

theorem State.transfer_iff {s t : State} {count : Nat} {kind : AccessKind} {act : List Nat → State} :
    s.Transfer count kind act t ↔
      (match s.indexed count kind with
        | .error c => Host.Outcome.next (s.raiseInExecute c)
        | .ok as => .next (act as) : Host.Outcome State Fault Refusal) = .next t := by
  constructor
  · rintro (h | h) <;> rw [h]
  · intro h
    split at h
    next hc => cases h; exact .faults hc
    next has => cases h; exact .acts has

theorem exec_drawSprite_iff {x y : Reg} {n : Nibble} {s t : State} : exec (.drawSprite x y n) s = .next t ↔
    s.Transfer (spriteRows n (s.spriteCoord y)) .read
      (fun as => s.drawCells (spriteCells (s.spriteCoord x) (s.spriteCoord y) (s.readBytes as))) t :=
  State.transfer_iff.symm

theorem exec_storeBcd_iff {x : Reg} {s t : State} : exec (.storeBcd x) s = .next t ↔
    s.Transfer 3 .write (fun as => s.writeBytes (as.zip (bcdDigits (s.reg x)))) t :=
  State.transfer_iff.symm

theorem exec_dumpRegisters_iff {x : Reg} {s t : State} : exec (.dumpRegisters x) s = .next t ↔
    s.Transfer (x.val + 1) .write (fun as => s.writeBytes (as.zip ((regsUpTo x).map s.reg))) t :=
  State.transfer_iff.symm

theorem exec_loadRegisters_iff {x : Reg} {s t : State} : exec (.loadRegisters x) s = .next t ↔
    s.Transfer (x.val + 1) .read (fun as => s.loadRegs ((regsUpTo x).zip (s.readBytes as))) t :=
  State.transfer_iff.symm

theorem exec_ret_iff {s t : State} : exec .ret s = .next t ↔
    (∃ a, s.top = some a ∧ t = s.dropTop.setPc a) ∨ (s.top = none ∧ s.cfg.emptyRet = .noop ∧ t = s) ∨
      (s.top = none ∧ s.cfg.emptyRet = .fault ∧ t = s.raiseInExecute .emptyStackReturn) := by
  simp only [exec, execRet]
  split
  next a ha => simp [ha, eq_comm]
  next hn => split <;> simp [*, eq_comm]

theorem exec_call_iff {nnn : Addr12} {s t : State} : exec (.call nnn) s = .next t ↔
    (∃ d, s.fullDepth = some d ∧ t = s.raiseInExecute (.stackOverflow d)) ∨
      (s.fullDepth = none ∧ t = (s.push s.pc).setPc (addrOperand nnn)) := by
  simp only [exec, execCall]
  split <;> simp [*, eq_comm]

/-! ### The table of R25 -/

/-- A frame that holds where the addresses are in range gives the whole row: out of range an instruction writes the fault record alone. -/
theorem Frame.of_transfer {w : Writes} {s t : State} {count : Nat} {kind : AccessKind} {act : List Nat → State}
    (h : s.Transfer count kind act t) (hf : w.fault = true) (hact : ∀ as, s.indexed count kind = .ok as → Frame w s (act as)) :
    Frame w s t := by
  cases h with
  | faults => exact Frame.raiseInExecute hf
  | acts has => exact hact _ has

/-- The row of an instruction that stores the bytes `bs` from I on. -/
theorem Frame.of_stores {s t : State} {count : Nat} {bs : List Byte}
    (h : s.Transfer count .write (fun as => s.writeBytes (as.zip bs)) t) :
    Frame { cells := cellsOf (s.indexed count .write), fault := true } s t :=
  Frame.of_transfer h rfl fun as has => Frame.writeBytes fun p hp => by
    simpa [has, cellsOf] using (List.of_mem_zip hp).1

theorem exec_frame {i : Instr} {s t : State} (h : exec i s = .next t) : Frame (writesOf s i) s t := by
  cases i
  case systemCallStub => cases h; exact Frame.refl _ _
  case clearDisplay => cases h; exact Frame.setDisplay rfl
  case goto | jumpWithOffset => cases h; exact Frame.setPc rfl
  case skipIfEqual | skipIfNotEqual | skipIfRegistersEqual | skipIfRegistersNotEqual => cases h; exact Frame.skipIf rfl
  case skipIfKeyPressed | skipIfKeyNotPressed => cases h; exact (Frame.afterKeyQuery rfl).trans (Frame.skipIf rfl)
  case setRegister | addImmediate | assignRegister | or | and | xor | getDelayTimer =>
    cases h; exact Frame.setReg (List.mem_singleton_self _)
  case andRandom => cases h; exact (Frame.afterRandom rfl).trans (Frame.setReg (List.mem_singleton_self _))
  case addRegisters | subtractRegisters | reverseSubtract =>
    cases h; exact Frame.setFlagThenResult (by simp [writesOf]) (by simp [writesOf])
  case shiftRight | shiftLeft =>
    cases h
    refine Frame.setShift ?_ fun hc => ?_
    · simp only [writesOf]; split <;> simp
    · simp [writesOf, hc]
  case setIndex | addToIndex | setIndexToFontGlyph => cases h; exact Frame.setIndex rfl
  case getKey => cases h; exact Frame.setWait rfl
  case setDelayTimer => cases h; exact Frame.setDelay rfl
  case setSoundTimer => cases h; exact Frame.setSound rfl
  case ret =>
    obtain ⟨a, -, rfl⟩ | ⟨-, -, rfl⟩ | ⟨-, -, rfl⟩ := exec_ret_iff.1 h
    · exact (Frame.dropTop rfl).trans (Frame.setPc rfl)
    · exact Frame.refl _ _
    · exact Frame.raiseInExecute rfl
  case call =>
    obtain ⟨d, -, rfl⟩ | ⟨-, rfl⟩ := exec_call_iff.1 h
    · exact Frame.raiseInExecute rfl
    · exact (Frame.push rfl).trans (Frame.setPc rfl)
  case drawSprite =>
    exact Frame.of_transfer (exec_drawSprite_iff.1 h) rfl fun _ _ => Frame.drawCells (List.mem_singleton_self _) rfl
  case storeBcd => exact Frame.of_stores (exec_storeBcd_iff.1 h)
  case dumpRegisters => exact Frame.of_stores (exec_dumpRegisters_iff.1 h)
  case loadRegisters =>
    exact Frame.of_transfer (exec_loadRegisters_iff.1 h) rfl fun _ _ => Frame.loadRegs fun l hl => (List.of_mem_zip hl).1

/-- Settles O19. -/
theorem instructionsWriteOnlyTheirTable : Obligations.InstructionsWriteOnlyTheirTable :=
  fun _ _ _ => exec_frame

end Sys2Proof.Machine

/-! ### All that a cycle and a step can do (40_execution_cycle.md R102, R104), with the word at PC and the causes of R250 -/

namespace Sys2Proof.Machine

@[simp] theorem State.nextWord_beginSlot (s : State) : s.beginSlot.nextWord = s.nextWord := by simp [State.nextWord]

/-- A cycle runs the instruction at PC, or raises a possible cause, of the fetch at PC or of the decoder after PC has moved on. -/
theorem State.cycle_cases {s t : State} (h : s.cycle = .next t) :
    (∃ i, decodeWord s.nextWord = .ok i ∧ exec i s.advancePc = .next t) ∨
      ∃ c, c.possible s.cfg = true ∧ (t = s.raise c s.pc ∨ t = s.advancePc.raise c s.pc) := by
  obtain ⟨-, ha⟩ | ⟨hp, -, ha⟩ := s.fetchAddrs_spec <;>
    obtain ⟨c, hf, hc⟩ | ⟨a0, a1, hf, hc⟩ := s.cycle_spec <;> rw [ha] at hf <;> cases hf
  · obtain ⟨i, hd, hc⟩ | ⟨e, hd, hc⟩ := hc <;> rw [hc] at h
    · exact .inl ⟨i, hd, h⟩
    · cases h
      exact .inr ⟨_, by simp [Cause.possible, hd, Except.isOk, Except.toBool], .inr rfl⟩
  · rw [hc] at h
    cases h
    exact .inr ⟨_, by simp [Cause.possible, hp], .inl rfl⟩

theorem step_cases {s t : State} (h : step s = .next t) :
    (s.fault.isSome ∧ t = s) ∨
      (s.fault = none ∧ ∃ x, s.wait = some x ∧ t = s.beginSlot.poll x) ∨
      (s.fault = none ∧ s.wait = none ∧ ∃ i, decodeWord s.nextWord = .ok i ∧ exec i s.beginSlot.advancePc = .next t) ∨
      (s.fault = none ∧ s.wait = none ∧ ∃ c, c.possible s.cfg = true ∧
        (t = s.beginSlot.raise c s.pc ∨ t = s.beginSlot.advancePc.raise c s.pc)) := by
  obtain ⟨hf, hs⟩ | ⟨hf, x, hw, hs⟩ | ⟨hf, hw, hs⟩ := step_spec s <;> rw [hs] at h
  · cases h; exact .inl ⟨hf, rfl⟩
  · cases h; exact .inr (.inl ⟨hf, x, hw, rfl⟩)
  · right; right
    simpa [hf, hw] using State.cycle_cases h

theorem State.possible_of_indexed_error {s : State} {count : Nat} {kind : AccessKind} {c : Cause}
    (h : s.indexed count kind = .error c) : c.possible s.cfg = true := by
  unfold State.indexed at h
  obtain ⟨-, e⟩ | ⟨hp, -, -, e⟩ := eaRange_spec s.cfg.addrPolicy kind count s.i.toNat <;> rw [e] at h <;> cases h
  simp [Cause.possible, hp]

theorem State.Transfer.keeps_fault_or_raises {s t : State} {count : Nat} {kind : AccessKind} {act : List Nat → State}
    (h : s.Transfer count kind act t) (hact : ∀ as, (act as).fault = s.fault ∧ (act as).slot = s.slot) :
    (t.fault = s.fault ∧ t.slot = s.slot) ∨ ∃ c, c.possible s.cfg = true ∧ t = s.raiseInExecute c := by
  cases h with
  | faults hc => exact .inr ⟨_, State.possible_of_indexed_error hc, rfl⟩
  | acts => exact .inl (hact _)

/-- R250, R258: an instruction leaves the fault record alone, or records a possible cause and changes nothing else. -/
theorem exec_keeps_fault_or_raises {i : Instr} {s t : State} (h : exec i s = .next t) :
    (t.fault = s.fault ∧ t.slot = s.slot) ∨ ∃ c, c.possible s.cfg = true ∧ t = s.raiseInExecute c := by
  cases i
  case ret =>
    obtain ⟨a, -, rfl⟩ | ⟨-, -, rfl⟩ | ⟨-, hp, rfl⟩ := exec_ret_iff.1 h
    · exact .inl ⟨rfl, rfl⟩
    · exact .inl ⟨rfl, rfl⟩
    · exact .inr ⟨_, by simp [Cause.possible, hp], rfl⟩
  case call =>
    obtain ⟨d, hd, rfl⟩ | ⟨-, rfl⟩ := exec_call_iff.1 h
    · exact .inr ⟨_, by simp [Cause.possible, (s.fullDepth_spec d).1 hd], rfl⟩
    · exact .inl ⟨rfl, rfl⟩
  case drawSprite => exact (exec_drawSprite_iff.1 h).keeps_fault_or_raises (by simp)
  case storeBcd => exact (exec_storeBcd_iff.1 h).keeps_fault_or_raises (by simp)
  case dumpRegisters => exact (exec_dumpRegisters_iff.1 h).keeps_fault_or_raises (by simp)
  case loadRegisters => exact (exec_loadRegisters_iff.1 h).keeps_fault_or_raises (by simp)
  all_goals exact .inl ((exec_frame h).fault rfl)

/-! ### The invariant (10_state.md R45) -/

theorem State.inv_iff (s : State) : s.inv = true ↔
    s.cfg.wf = true ∧ Memory.wf s.cfg.font s.mem = true ∧ s.stackBounded = true ∧ s.slot < s.cfg.cyclesPerTick ∧
      s.faultConsistent = true := by
  simp [State.inv, and_assoc]

theorem State.slot_lt_of_inv {s : State} (h : s.inv = true) : s.slot < s.cfg.cyclesPerTick := by
  obtain ⟨-, -, -, hslot, -⟩ := s.inv_iff.1 h
  exact hslot

theorem State.stackBounded_iff (s : State) : s.stackBounded = true ↔ ∀ d, s.cfg.stackDepth = some d → s.stack.length ≤ d := by
  unfold State.stackBounded
  split <;> simp [*]

theorem State.faultConsistent_of_none {s : State} (h : s.fault = none) : s.faultConsistent = true := by
  simp [State.faultConsistent, h]

/-- Everything the invariant speaks of but the slot count, kept while no fault is recorded. -/
theorem State.inv_of_eq {s t : State} (hs : s.inv = true) (hcfg : t.cfg = s.cfg) (hmem : t.mem = s.mem)
    (hstack : t.stack = s.stack) (hslot : t.slot < t.cfg.cyclesPerTick) (hfault : t.fault = none) : t.inv = true := by
  obtain ⟨hc, hm, hb, -, -⟩ := s.inv_iff.1 hs
  rw [State.stackBounded_iff] at hb
  rw [State.inv_iff, State.stackBounded_iff, hcfg, hmem, hstack]
  exact ⟨hc, hm, hb, hcfg ▸ hslot, State.faultConsistent_of_none hfault⟩

theorem State.inv_beginSlot {s : State} (hs : s.inv = true) (hf : s.fault = none) : s.beginSlot.inv = true := by
  have hslot := State.slot_lt_of_inv hs
  refine State.inv_of_eq hs (by simp) (by simp) (by simp) ?_ (by simpa)
  rw [State.beginSlot_slot, State.beginSlot_cfg]
  split
  next h => exact h
  next => omega

theorem State.inv_advancePc {s : State} (hs : s.inv = true) (hf : s.fault = none) : s.advancePc.inv = true :=
  State.inv_of_eq hs rfl rfl rfl (State.slot_lt_of_inv hs) hf

theorem State.inv_poll {s : State} {x : Reg} (hs : s.inv = true) (hf : s.fault = none) : (s.poll x).inv = true :=
  State.inv_of_eq hs (by simp) (by simp) (by simp) (by simpa using State.slot_lt_of_inv hs) (by simpa)

/-- R101, R258: raising a possible cause while the block does not wait. -/
theorem State.inv_raise {s : State} {c : Cause} {p : Word} (hs : s.inv = true) (hw : s.wait = none)
    (hc : c.possible s.cfg = true) : (s.raise c p).inv = true := by
  obtain ⟨hcfg, hm, hb, hslot, -⟩ := s.inv_iff.1 hs
  rw [State.stackBounded_iff] at hb
  rw [State.inv_iff, State.stackBounded_iff]
  exact ⟨hcfg, hm, hb, Nat.zero_lt_of_lt hslot, by simp [State.faultConsistent, hc, hw]⟩

theorem State.Transfer.wf_stores {s t : State} {count : Nat} {bs : List Byte}
    (h : s.Transfer count .write (fun as => s.writeBytes (as.zip bs)) t) (hm : Memory.wf s.cfg.font s.mem = true) :
    Memory.wf t.cfg.font t.mem = true := by
  cases h with
  | faults => exact hm
  | acts has => exact s.wf_writeBytes _ (fun p hp => eaRange_lt has _ (List.of_mem_zip hp).1) hm

/-- R50: the addresses stored to come from `ea`, so memory stays in canonical form; but for the two stores it is the same list. -/
theorem exec_keeps_memory_wf {i : Instr} {s t : State} (h : exec i s = .next t) (hm : Memory.wf s.cfg.font s.mem = true) :
    Memory.wf t.cfg.font t.mem = true := by
  cases i
  case storeBcd => exact (exec_storeBcd_iff.1 h).wf_stores hm
  case dumpRegisters => exact (exec_dumpRegisters_iff.1 h).wf_stores hm
  all_goals rwa [(exec_frame h).cfg, (exec_frame h).mem rfl]

/-- R45, R123: a call pushes only below STACK_DEPTH, a return only shortens S, and nothing else changes it. -/
theorem exec_keeps_stackBounded {i : Instr} {s t : State} (h : exec i s = .next t) (hs : s.stackBounded = true) :
    t.stackBounded = true := by
  rw [State.stackBounded_iff] at hs ⊢
  rw [(exec_frame h).cfg]
  intro d hd
  have hle := hs d hd
  cases i
  case ret =>
    obtain ⟨a, -, rfl⟩ | ⟨-, -, rfl⟩ | ⟨-, -, rfl⟩ := exec_ret_iff.1 h
    · simpa using hle.trans (Nat.le_succ d)
    · exact hle
    · exact hle
  case call =>
    obtain ⟨_, -, rfl⟩ | ⟨hn, rfl⟩ := exec_call_iff.1 h
    · exact hle
    · have hne : s.stack.length ≠ d := fun e => by simpa [hn] using (s.fullDepth_spec d).2 ⟨hd, e⟩
      simpa using Nat.lt_of_le_of_ne hle hne
  all_goals rwa [(exec_frame h).stack rfl]

theorem exec_keeps_inv {i : Instr} {s t : State} (h : exec i s = .next t) (hs : s.inv = true) (hf : s.fault = none)
    (hw : s.wait = none) : t.inv = true := by
  obtain ⟨hfault, hslot⟩ | ⟨c, hc, rfl⟩ := exec_keeps_fault_or_raises h
  · obtain ⟨hcfg, hm, hb, hlt, -⟩ := s.inv_iff.1 hs
    rw [State.inv_iff]
    refine ⟨?_, exec_keeps_memory_wf h hm, exec_keeps_stackBounded h hb, ?_, State.faultConsistent_of_none (hfault.trans hf)⟩
    · rwa [exec_keeps_cfg h]
    · rwa [hslot, exec_keeps_cfg h]
  · exact State.inv_raise hs hw hc

/-- Settles O15: the slot's beginning keeps the invariant, and so does each way a step can go on from there. -/
theorem stepKeepsInvariant : Obligations.StepKeepsInvariant := by
  intro s t hs h
  obtain ⟨-, rfl⟩ | ⟨hf, x, -, rfl⟩ | ⟨hf, hw, i, -, hi⟩ | ⟨hf, hw, c, hc, ht⟩ := step_cases h
  · exact hs
  · exact State.inv_poll (State.inv_beginSlot hs hf) (by simpa)
  · exact exec_keeps_inv hi (State.inv_advancePc (State.inv_beginSlot hs hf) (by simpa)) (by simpa) (by simpa)
  · have hb := State.inv_beginSlot hs hf
    obtain rfl | rfl := ht
    · exact State.inv_raise hb (by simpa) (by simpa)
    · exact State.inv_raise (State.inv_advancePc hb (by simpa)) (by simpa) (by simpa)

/-- Settles O16: every part of the invariant is decided on the one state. -/
theorem resetMeetsInvariant : Obligations.ResetMeetsInvariant := by
  unfold Obligations.ResetMeetsInvariant
  decide

/-! ### Who writes what (10_state.md R25): the table read by column -/

/-- A piece of state that has changed is named by its row, given the row's frame for it. -/
theorem named_of_changed {named : Bool} {kept : Prop} (hframe : named = false → kept) (hchanged : ¬ kept) : named = true :=
  Bool.eq_true_of_not_eq_false fun e => hchanged (hframe e)

section
variable {s : State} {i : Instr}

theorem writesOf_cells (h : (writesOf s i).cells ≠ []) : ∃ x, i = .storeBcd x ∨ i = .dumpRegisters x := by
  cases i <;> simp_all [writesOf]

theorem writesOf_index (h : (writesOf s i).index = true) :
    (∃ nnn, i = .setIndex nnn) ∨ ∃ x, i = .addToIndex x ∨ i = .setIndexToFontGlyph x := by
  cases i <;> simp_all [writesOf]

theorem writesOf_stack (h : (writesOf s i).stack = true) : (∃ nnn, i = .call nnn) ∨ i = .ret := by
  cases i <;> simp_all [writesOf]

theorem writesOf_display (h : (writesOf s i).display = true) : i = .clearDisplay ∨ ∃ x y n, i = .drawSprite x y n := by
  cases i <;> simp_all [writesOf]

theorem writesOf_delay (h : (writesOf s i).delay = true) : ∃ x, i = .setDelayTimer x := by
  cases i <;> simp_all [writesOf]

theorem writesOf_sound (h : (writesOf s i).sound = true) : ∃ x, i = .setSoundTimer x := by
  cases i <;> simp_all [writesOf]

theorem writesOf_wait (h : (writesOf s i).wait = true) : ∃ x, i = .getKey x := by
  cases i <;> simp_all [writesOf]

end

/-! ### The run states (10_state.md R36) -/

theorem State.runState_faulted_iff (s : State) : s.runState = .faulted ↔ s.fault.isSome := by
  unfold State.runState
  split
  · simp [*]
  · split <;> simp [*]

theorem State.runState_waiting_iff (s : State) : s.runState = .waiting ↔ s.fault = none ∧ s.wait.isSome := by
  unfold State.runState
  split
  · simp [*]
  · split <;> simp [*]

theorem State.runState_running_iff (s : State) : s.runState = .running ↔ s.fault = none ∧ s.wait = none := by
  unfold State.runState
  split
  · simp [*]
  · split <;> simp [*]

/-- R101: a Running block that an instruction leaves Waiting ran get-key: no other row of R25 names W. -/
theorem exec_starts_wait {i : Instr} {s t : State} (h : exec i s = .next t) (hs : s.wait = none) (ht : t.wait ≠ none) :
    ∃ x, i = .getKey x ∧ t.wait = some x := by
  obtain ⟨x, rfl⟩ := writesOf_wait (named_of_changed (exec_frame h).wait (by rwa [hs]))
  cases h
  exact ⟨x, rfl, rfl⟩

/-- Settles O20: Faulted, Waiting and Running each by what a step does there. -/
theorem runStateTransitions : Obligations.RunStateTransitions := by
  intro s t h
  simp only [State.runState_faulted_iff, State.runState_waiting_iff, State.runState_running_iff]
  obtain ⟨hf, rfl⟩ | ⟨hf, x, hw, rfl⟩ | ⟨hf, hw, i, hd, hi⟩ | ⟨hf, hw, c, -, ht⟩ := step_cases h
  case inl => exact ⟨id, fun hs => .inl hs, fun hs ht => by simp [hs.2] at ht⟩
  all_goals refine ⟨fun hs => by simp [hf] at hs, ?_, ?_⟩
  · intro _
    cases hp : (s.beginSlot.poll x).wait <;> simp [hf]
  · simp [hw]
  · simp [hw]
  · rintro - ⟨-, ht⟩
    obtain ⟨x, rfl, hx⟩ := exec_starts_wait hi (by simpa) (Option.isSome_iff_ne_none.1 ht)
    exact ⟨x, hd, hx⟩
  · simp [hw]
  · rintro - ⟨ht', -⟩
    obtain rfl | rfl := ht <;> cases ht'

/-- Settles O21: only a step that runs an instruction changes any of these, and then the instruction's row names it. -/
theorem onlyTheirWritersChangeThem : Obligations.OnlyTheirWritersChangeThem := by
  intro s t h
  obtain ⟨-, rfl⟩ | ⟨-, x, -, rfl⟩ | ⟨-, -, i, hd, hi⟩ | ⟨-, -, c, -, rfl | rfl⟩ := step_cases h
  case inr.inr.inl =>
    have hframe := exec_frame hi
    rw [hd]
    simp only [Except.ok.injEq]
    refine ⟨fun hne => ?_, fun hne => ?_, fun hne => ?_, fun hne => ?_, fun hs hne => ?_, fun hs hne => ?_⟩
    · exact writesOf_cells fun e => hne (by simpa using hframe.mem e)
    · exact writesOf_index (named_of_changed hframe.index (by simpa using hne))
    · exact writesOf_stack (named_of_changed hframe.stack (by simpa using hne))
    · exact writesOf_display (named_of_changed hframe.display (by simpa using hne))
    · exact writesOf_delay (named_of_changed hframe.delay (by simpa [hs] using hne))
    · exact writesOf_sound (named_of_changed hframe.sound (by simpa [hs] using hne))
  all_goals simp +contextual

end Sys2Proof.Machine

/-! ### What most instructions neither read nor write: ST (10_state.md R32) and what the random port would answer (43_alu.md R172) -/

namespace Sys2Proof.Machine

/-- The state with another ST and another script of the random port. -/
def State.withSoundAndRandom (s : State) (b : Byte) (l : List Byte) : State := { s with st := b, randomAnswers := l }

section
variable {s t : State} {i : Instr} (b : Byte) (l : List Byte)

theorem State.skipIf_withSoundAndRandom (s : State) (c : Bool) :
    (s.withSoundAndRandom b l).skipIf c = (s.skipIf c).withSoundAndRandom b l := by
  cases c <;> rfl

theorem State.setShift_withSoundAndRandom (s : State) (f : Byte) (x : Reg) (r : Byte) :
    (s.withSoundAndRandom b l).setShift f x r = (s.setShift f x r).withSoundAndRandom b l := by
  unfold State.setShift
  rw [apply_ite (State.withSoundAndRandom · b l)]
  rfl

theorem State.writeBytes_withSoundAndRandom (ws : List (Nat × Byte)) :
    (s.withSoundAndRandom b l).writeBytes ws = (s.writeBytes ws).withSoundAndRandom b l := by
  induction ws generalizing s with
  | nil => rfl
  | cons p ws ih => exact ih (s := s.writeByte p.1 p.2)

theorem State.loadRegs_withSoundAndRandom (ls : List (Reg × Byte)) :
    (s.withSoundAndRandom b l).loadRegs ls = (s.loadRegs ls).withSoundAndRandom b l := by
  induction ls generalizing s with
  | nil => rfl
  | cons p ls ih => exact ih (s := s.setReg p.1 p.2)

/-- The address check reads neither, so a transfer whose action commutes with the exchange does. -/
theorem State.Transfer.withSoundAndRandom {count : Nat} {kind : AccessKind} {act act' : List Nat → State}
    (h : s.Transfer count kind act t) (hact : ∀ as, act' as = (act as).withSoundAndRandom b l) :
    (s.withSoundAndRandom b l).Transfer count kind act' (t.withSoundAndRandom b l) := by
  cases h with
  | faults hc => exact .faults hc
  | acts has => exact hact _ ▸ .acts has

theorem exec_withSoundAndRandom (hsound : ∀ x, i ≠ .setSoundTimer x) (hrandom : ∀ x nn, i ≠ .andRandom x nn)
    (h : exec i s = .next t) : exec i (s.withSoundAndRandom b l) = .next (t.withSoundAndRandom b l) := by
  cases i
  case setSoundTimer x => exact absurd rfl (hsound x)
  case andRandom x nn => exact absurd rfl (hrandom x nn)
  case ret =>
    obtain ⟨a, ha, rfl⟩ | ⟨hn, hp, rfl⟩ | ⟨hn, hp, rfl⟩ := exec_ret_iff.1 h
    · exact exec_ret_iff.2 (.inl ⟨a, ha, rfl⟩)
    · exact exec_ret_iff.2 (.inr (.inl ⟨hn, hp, rfl⟩))
    · exact exec_ret_iff.2 (.inr (.inr ⟨hn, hp, rfl⟩))
  case call =>
    obtain ⟨d, hd, rfl⟩ | ⟨hn, rfl⟩ := exec_call_iff.1 h
    · exact exec_call_iff.2 (.inl ⟨d, hd, rfl⟩)
    · exact exec_call_iff.2 (.inr ⟨hn, rfl⟩)
  case skipIfEqual | skipIfNotEqual | skipIfRegistersEqual | skipIfRegistersNotEqual =>
    cases h; exact congrArg Host.Outcome.next (s.skipIf_withSoundAndRandom b l _)
  case skipIfKeyPressed | skipIfKeyNotPressed =>
    cases h; exact congrArg Host.Outcome.next (s.afterKeyQuery.skipIf_withSoundAndRandom b l _)
  case shiftRight | shiftLeft => cases h; exact congrArg Host.Outcome.next (s.setShift_withSoundAndRandom b l _ _ _)
  case drawSprite =>
    exact exec_drawSprite_iff.2 ((exec_drawSprite_iff.1 h).withSoundAndRandom b l fun _ => rfl)
  case storeBcd =>
    exact exec_storeBcd_iff.2 ((exec_storeBcd_iff.1 h).withSoundAndRandom b l fun _ => State.writeBytes_withSoundAndRandom b l _)
  case dumpRegisters =>
    exact exec_dumpRegisters_iff.2
      ((exec_dumpRegisters_iff.1 h).withSoundAndRandom b l fun _ => State.writeBytes_withSoundAndRandom b l _)
  case loadRegisters =>
    exact exec_loadRegisters_iff.2
      ((exec_loadRegisters_iff.1 h).withSoundAndRandom b l fun _ => State.loadRegs_withSoundAndRandom b l _)
  all_goals cases h; rfl

/-- The exchange of nothing is an exchange too: what the instruction leaves of both. -/
theorem exec_keeps_sound_and_random (hsound : ∀ x, i ≠ .setSoundTimer x) (hrandom : ∀ x nn, i ≠ .andRandom x nn)
    (h : exec i s = .next t) : t.st = s.st ∧ t.randomAnswers = s.randomAnswers := by
  have hself : exec i s = .next (t.withSoundAndRandom s.st s.randomAnswers) :=
    exec_withSoundAndRandom s.st s.randomAnswers hsound hrandom h
  have ht : t = t.withSoundAndRandom s.st s.randomAnswers := Host.Outcome.next.inj (h.symm.trans hself)
  rw [ht]
  exact ⟨rfl, rfl⟩

end

/-- Settles O22: and-random and set-sound-timer by their one answer, the others by the exchange of ST alone. -/
theorem noInstructionReadsSoundTimer : Obligations.NoInstructionReadsSoundTimer := by
  intro i s t b h
  constructor
  · intro hsound
    by_cases hrandom : ∃ x nn, i = .andRandom x nn
    · obtain ⟨x, nn, rfl⟩ := hrandom
      cases h
      rfl
    · have hrandom' : ∀ x nn, i ≠ .andRandom x nn := fun x nn e => hrandom ⟨x, nn, e⟩
      obtain ⟨-, hr⟩ := exec_keeps_sound_and_random hsound hrandom' h
      have hexec := exec_withSoundAndRandom b s.randomAnswers hsound hrandom' h
      simpa only [State.withSoundAndRandom, ← hr] using hexec
  · rintro ⟨x, rfl⟩
    cases h
    rfl

/-- Settles O23: set-sound-timer by its one answer, the others by the exchange of the random port's script alone. -/
theorem onlyAndRandomAsksTheRandomPort : Obligations.OnlyAndRandomAsksTheRandomPort := by
  intro i s t l hrandom h
  by_cases hsound : ∃ x, i = .setSoundTimer x
  · obtain ⟨x, rfl⟩ := hsound
    cases h
    rfl
  · have hsound' : ∀ x, i ≠ .setSoundTimer x := fun x e => hsound ⟨x, e⟩
    obtain ⟨hs, -⟩ := exec_keeps_sound_and_random hsound' hrandom h
    have hexec := exec_withSoundAndRandom s.st l hsound' hrandom h
    simpa only [State.withSoundAndRandom, ← hs] using hexec

/-! ### The slot's beginning, the inert state, reset and the timer moves -/

/-- R103: one less, floored at 0. -/
theorem toNat_countDown (t : Byte) : (countDown t).toNat = t.toNat - 1 := by
  unfold countDown
  split
  next h => rw [BitVec.toNat_sub_of_le (show (1 : Byte) ≤ t from h)]; rfl
  next h => omega

/-- Settles O6. -/
theorem slotBeginsWithTheTimers : Obligations.SlotBeginsWithTheTimers := fun s =>
  ⟨by rw [State.beginSlot_dt]; split <;> simp [toNat_countDown],
    by rw [State.beginSlot_st]; split <;> simp [toNat_countDown],
    State.beginSlot_slot s, State.beginSlot_fault s, Frame.beginSlot rfl rfl rfl⟩

/-- Settles O11. -/
theorem faultedBlockIsInert : Obligations.FaultedBlockIsInert := by
  intro s f hf
  refine ⟨s.runState_faulted_iff.2 (by simp [hf]), hf, ?_, ?_⟩
  · simp [step, State.runSlot, hf]
  · simp [State.tick, hf]

/-- R52: outside the font's bytes construction leaves zero. -/
theorem Memory.initial_outside_font (font : Font) {a : Nat} (h : a < 0x050 ∨ 0x0A0 ≤ a) : Memory.initial font a = 0 :=
  dif_neg (by omega)

/-- Settles O24. -/
theorem resetState : Obligations.ResetState :=
  ⟨rfl, rfl, rfl, rfl, rfl, rfl, fun _ ha => Memory.initial_outside_font _ ha, by decide, rfl, rfl, rfl,
    Framebuffer.get_clear⟩

/-- R82: a word of group 0xF dispatches on its low byte. -/
theorem decodeWord_wordXNN_F (x : Reg) (nn : Byte) : decodeWord (wordXNN 0xF x nn) = decodeGroupF (wordXNN 0xF x nn) := by
  simp [decodeWord]

/-- Settles O49. -/
theorem timerMoves : Obligations.TimerMoves := by
  intro x s
  refine ⟨?_, ⟨_, rfl, State.reg_setReg_same _ _ _, exec_frame (i := .getDelayTimer x) rfl⟩,
    ?_, ⟨_, rfl, rfl, exec_frame (i := .setDelayTimer x) rfl⟩,
    ?_, ⟨_, rfl, rfl, rfl, exec_frame (i := .setSoundTimer x) rfl⟩⟩
  all_goals
    rw [decodeWord_wordXNN_F]
    simp [decodeGroupF]

end Sys2Proof.Machine

/-! ### The transfers at I (44_index_memory.md R196): in range at I + k mod 4096, out of range a record of the first bad address -/

namespace Sys2Proof.Machine

section
variable {s : State} {count : Nat} {kind : AccessKind}

theorem State.indexInRange_iff :
    s.indexInRange count ↔ s.i.toNat + count ≤ 0x1000 ∨ s.cfg.addrPolicy = .mask ∨ count = 0 :=
  (or_congr_right (by omega)).trans or_left_comm

theorem State.indexed_of_indexInRange (h : s.indexInRange count) :
    s.indexed count kind = .ok ((List.range' s.i.toNat count).map (· % 4096)) :=
  eaRange_ok _ _ _ _ (State.indexInRange_iff.1 h)

theorem State.indexed_of_not_indexInRange (h : ¬ s.indexInRange count) :
    s.indexed count kind = .error (.memoryRange (max s.i.toNat 0x1000) kind) := by
  obtain ⟨hin, -⟩ | ⟨-, -, -, e⟩ := eaRange_spec s.cfg.addrPolicy kind count s.i.toNat
  · exact absurd (State.indexInRange_iff.2 hin) h
  · exact e

/-- Where no address comes twice and each has its byte, the k-th address holds the k-th byte. -/
theorem State.readByte_writeBytes_zip {as : List Nat} {bs : List Byte} {k a : Nat} {b : Byte} (hnd : as.Nodup)
    (hlen : as.length ≤ bs.length) (ha : as[k]? = some a) (hb : bs[k]? = some b) : (s.writeBytes (as.zip bs)).readByte a = b := by
  refine s.readByte_writeBytes_mem _ ?_ (List.mem_of_getElem? (List.getElem?_zip_eq_some.2 ⟨ha, hb⟩))
  rwa [List.map_fst_zip hlen]

theorem State.readByte_writeBytes_zip_other {as : List Nat} {bs : List Byte} {a : Nat} (h : a ∉ as) :
    (s.writeBytes (as.zip bs)).readByte a = s.readByte a :=
  s.readByte_writeBytes_other _ a fun _ hw e => h (e ▸ (List.of_mem_zip hw).1)

/-- R196, R258: a transfer out of range records the first address above 0xFFF and changes nothing else. -/
theorem exec_faults_of_not_indexInRange {i : Instr} {act : List Nat → State}
    (hexec : ∀ {t}, exec i s = .next t ↔ s.Transfer count kind act t) (h : ¬ s.indexInRange count) :
    ∃ t, exec i s = .next t ∧ t.fault = some ⟨.memoryRange (max s.i.toNat 0x1000) kind, s.pc - 2⟩ ∧ t.slot = 0 ∧
      Frame { fault := true } s t :=
  ⟨_, hexec.2 (.faults (State.indexed_of_not_indexInRange h)), rfl, rfl, Frame.raiseInExecute rfl⟩

/-- R193, R194: a store in range puts its k-th byte at I + k mod 4096 and changes no other cell. -/
theorem exec_stores_of_indexInRange {i : Instr} {bs : List Byte}
    (hexec : ∀ {t}, exec i s = .next t ↔ s.Transfer count .write (fun as => s.writeBytes (as.zip bs)) t)
    (hlen : bs.length = count) (hcount : count ≤ 4096) (h : s.indexInRange count) :
    ∃ t, exec i s = .next t ∧ (∀ k b, bs[k]? = some b → t.readByte ((s.i.toNat + k) % 4096) = b) ∧
      Frame { cells := cellsOf (s.indexed count .write) } s t := by
  have has := State.indexed_of_indexInRange (kind := .write) h
  refine ⟨_, hexec.2 (.acts has), fun k b hb => ?_, Frame.writeBytes fun p hp => ?_⟩
  · obtain ⟨hk, -⟩ := List.getElem?_eq_some_iff.1 hb
    refine State.readByte_writeBytes_zip (eaRange_nodup has hcount) (by simp [hlen]) ?_ hb
    simp [hlen ▸ hk]
  · simpa [has, cellsOf] using (List.of_mem_zip hp).1

end

theorem toNat_bcdDigit {d : Nat} (h : d ≤ 255) : (BitVec.ofNat 8 d).toNat = d := by
  rw [BitVec.toNat_ofNat]; omega

/-- Settles O41: the three digits are the bytes of one store. -/
theorem storeBcdWritesDigits : Obligations.StoreBcdWritesDigits := by
  intro x s
  refine ⟨(decodeWord_wordXNN_F x _).trans (by simp [decodeGroupF]), fun h => ⟨State.indexed_of_indexInRange h, ?_⟩,
    exec_faults_of_not_indexInRange exec_storeBcd_iff⟩
  obtain ⟨t, ht, hbytes, hframe⟩ := exec_stores_of_indexInRange exec_storeBcd_iff rfl (by decide) h
  have hv : (s.reg x).toNat < 256 := (s.reg x).isLt
  refine ⟨t, ht, ?_, ?_, ?_, hframe⟩
  · exact (congrArg BitVec.toNat (hbytes 0 _ rfl)).trans (toNat_bcdDigit (by omega))
  · exact (congrArg BitVec.toNat (hbytes 1 _ rfl)).trans (toNat_bcdDigit (by omega))
  · exact (congrArg BitVec.toNat (hbytes 2 _ rfl)).trans (toNat_bcdDigit (by omega))

/-- Settles O42: V[0] to V[x] are the bytes of one store. -/
theorem dumpRegistersStoresThem : Obligations.DumpRegistersStoresThem := by
  intro x s
  refine ⟨(decodeWord_wordXNN_F x _).trans (by simp [decodeGroupF]), fun h => ⟨State.indexed_of_indexInRange h, ?_⟩,
    exec_faults_of_not_indexInRange exec_dumpRegisters_iff⟩
  obtain ⟨t, ht, hbytes, hframe⟩ :=
    exec_stores_of_indexInRange exec_dumpRegisters_iff (by simp [regsUpTo_length]) (by omega) h
  exact ⟨t, ht, fun c hc => hbytes c.val _ (by simp [regsUpTo_getElem? x c.val hc]), hframe⟩

/-- Settles O43: the registers named are distinct, so each ends with the byte loaded into it. -/
theorem loadRegistersLoadsThem : Obligations.LoadRegistersLoadsThem := by
  intro x s
  refine ⟨(decodeWord_wordXNN_F x _).trans (by simp [decodeGroupF]), fun h => ?_,
    exec_faults_of_not_indexInRange exec_loadRegisters_iff⟩
  have hframe (as) : Frame { regs := regsUpTo x } s (s.loadRegs ((regsUpTo x).zip (s.readBytes as))) :=
    Frame.loadRegs fun l hl => (List.of_mem_zip hl).1
  refine ⟨_, exec_loadRegisters_iff.2 (.acts (State.indexed_of_indexInRange h)), fun c hc => ?_,
    fun c hc => (hframe _).regs c (by simpa [mem_regsUpTo] using hc), hframe _⟩
  have hlen : (regsUpTo x).length = x.val + 1 := regsUpTo_length x
  refine s.reg_loadRegs_mem _ ?_ (List.mem_of_getElem? (i := c.val) (List.getElem?_zip_eq_some.2 ⟨?_, ?_⟩))
  · rw [List.map_fst_zip (by simp [State.readBytes, hlen])]
    exact regsUpTo_nodup x
  · exact regsUpTo_getElem? x c.val hc
  · simp [State.readBytes, Nat.lt_succ_of_le hc]

/-! ### Draw-sprite (45_display.md R212) -/

/-- Settles O47. -/
theorem drawSpriteFaultsOutOfRange : Obligations.DrawSpriteFaultsOutOfRange :=
  fun _ _ _ _ => exec_faults_of_not_indexInRange exec_drawSprite_iff

/-- The bytes of the unclipped rows. -/
def State.spriteBytes (s : State) (y : Reg) (n : Nibble) : List Byte :=
  s.readBytes ((List.range' s.i.toNat (spriteRows n (s.spriteCoord y))).map (· % 4096))

/-- The cells draw-sprite asks drawPixel for. -/
def State.spriteCellsAt (s : State) (x y : Reg) (n : Nibble) : List (Nat × Nat) :=
  spriteCells (s.spriteCoord x) (s.spriteCoord y) (s.spriteBytes y n)

section
variable {s : State} {x y : Reg} {n : Nibble}

theorem exec_drawSprite_of_indexInRange (h : s.indexInRange (min n.toNat (32 - s.spriteCoord y))) :
    exec (.drawSprite x y n) s = .next (s.drawCells (s.spriteCellsAt x y n)) :=
  exec_drawSprite_iff.2 (.acts (State.indexed_of_indexInRange h))

theorem State.spriteBytes_getElem? (r : Nat) (b : Byte) : (s.spriteBytes y n)[r]? = some b ↔
    r < spriteRows n (s.spriteCoord y) ∧ s.readByte ((s.i.toNat + r) % 4096) = b := by
  simp [State.spriteBytes, State.readBytes, List.getElem?_eq_some_iff]

/-- Inside the grid the cells asked for are those the sprite covers. -/
theorem State.mem_spriteCellsAt {col row : Nat} (hc : col < 64) (hr : row < 32) :
    (col, row) ∈ s.spriteCellsAt x y n ↔ s.spriteCovers x y n col row = true := by
  rw [State.spriteCellsAt, mem_spriteCells]
  simp only [State.spriteBytes_getElem?, State.spriteCovers, spriteRows, Bool.and_eq_true, decide_eq_true_eq]
  constructor
  · rintro ⟨b, ⟨hrow, rfl⟩, hy, -, hx, hx8, hbit⟩
    exact ⟨⟨⟨⟨hx, hx8⟩, hy⟩, by omega⟩, hbit⟩
  · rintro ⟨⟨⟨⟨hx, hx8⟩, hy⟩, hyn⟩, hbit⟩
    exact ⟨_, ⟨by omega, rfl⟩, hy, hc, hx, hx8, hbit⟩

theorem State.spriteCellsAt_nodup : (s.spriteCellsAt x y n).Nodup := spriteCells_nodup _ _ _

theorem State.spriteCellsAt_inside : ∀ c ∈ s.spriteCellsAt x y n, c.1 < 64 ∧ c.2 < 32 := by
  refine spriteCells_inside _ _ _ ?_
  have hlen : (s.spriteBytes y n).length = spriteRows n (s.spriteCoord y) := by simp [State.spriteBytes, State.readBytes]
  rw [← List.length_eq_zero_iff, hlen]
  exact spriteRows_le n _

/-- R212: VF is set exactly when a covered cell was. -/
theorem State.flip_spriteCellsAt : (s.fb.drawPixels (s.spriteCellsAt x y n)).2 = true ↔
    ∃ col row, col < 64 ∧ row < 32 ∧ s.spriteCovers x y n col row = true ∧ s.fb.get col row = true := by
  rw [Framebuffer.flip_drawPixels _ _ State.spriteCellsAt_nodup State.spriteCellsAt_inside, List.any_eq_true]
  constructor
  · rintro ⟨⟨col, row⟩, hmem, hset⟩
    obtain ⟨hc, hr⟩ := State.spriteCellsAt_inside _ hmem
    exact ⟨col, row, hc, hr, (State.mem_spriteCellsAt hc hr).1 hmem, hset⟩
  · rintro ⟨col, row, hc, hr, hcov, hset⟩
    exact ⟨(col, row), (State.mem_spriteCellsAt hc hr).2 hcov, hset⟩

end

/-- Settles O46: the cells asked for are distinct, inside the grid, and those the sprite covers there. -/
theorem drawSpriteTogglesItsCells : Obligations.DrawSpriteTogglesItsCells := by
  intro x y n s
  refine ⟨by simp [decodeWord], fun h => ?_⟩
  have hVF := s.reg_drawCells (s.spriteCellsAt x y n) VF
  rw [if_pos rfl] at hVF
  refine ⟨_, exec_drawSprite_of_indexInRange h, fun col row hc hr => ?_, fun hset => ?_, fun hclear => ?_,
    Frame.drawCells (List.mem_singleton_self _) rfl⟩
  · have hcov : decide ((col, row) ∈ s.spriteCellsAt x y n) = s.spriteCovers x y n col row := by
      rw [Bool.eq_iff_iff, decide_eq_true_eq, State.mem_spriteCellsAt hc hr]
    rw [State.drawCells_fb, Framebuffer.get_drawPixels _ _ State.spriteCellsAt_nodup State.spriteCellsAt_inside _ _ hc hr, hcov]
  · exact hVF.trans (by rw [State.flip_spriteCellsAt.2 hset]; rfl)
  · have hno : (s.fb.drawPixels (s.spriteCellsAt x y n)).2 = false := by
      rw [Bool.eq_false_iff, Ne, State.flip_spriteCellsAt]
      rintro ⟨col, row, hc, hr, hcov, hset⟩
      rw [hclear col row hc hr hcov] at hset
      cases hset
    exact hVF.trans (by rw [hno]; rfl)

/-! ### Construction (70_reset_and_hazards.md R291) -/

/-- A store changes M alone. -/
theorem State.writeBytes_eq (s : State) (ws : List (Nat × Byte)) : s.writeBytes ws = { s with mem := (s.writeBytes ws).mem } := by
  induction ws generalizing s with
  | nil => rfl
  | cons w ws ih => exact ih (s.writeByte w.1 w.2)

/-- R53: the font's bytes, glyph after glyph, are what construction leaves from 0x050 on. -/
theorem Memory.initial_font (font : Font) (g : Fin 16) (r : Fin 5) :
    Memory.initial font (0x050 + 5 * g.val + r.val) = (font[g.val])[r.val] := by
  have hg : (0x050 + 5 * g.val + r.val - 0x050) / 5 = g.val := by omega
  have hr : (0x050 + 5 * g.val + r.val - 0x050) % 5 = r.val := by omega
  rw [Memory.initial, dif_pos (by omega)]
  simp only [hg, hr]

/-- The state before the ROM is written (R291, steps 1 and 2): no cell is listed, so each holds `Memory.initial`. -/
def State.blank (cfg : Config) : State := { State.reset with cfg := cfg }

theorem State.construct_of_fits {cfg : Config} {rom : List Byte} (h : rom.length ≤ 3584) :
    State.construct cfg rom = .next ((State.blank cfg).writeBytes ((List.range' romBase rom.length).zip rom)) :=
  if_neg (Nat.not_lt.2 h)

@[simp] theorem State.blank_cfg (cfg : Config) : (State.blank cfg).cfg = cfg := rfl

theorem State.readByte_blank (cfg : Config) (a : Nat) : (State.blank cfg).readByte a = Memory.initial cfg.font a := rfl

/-- Settles O25: the ROM by reading back what was written, the rest by what an unlisted cell holds. -/
theorem constructionLoadsFontAndRom : Obligations.ConstructionLoadsFontAndRom := by
  intro cfg rom
  have hrom (a : Nat) : a ∈ List.range' romBase rom.length ↔ 0x200 ≤ a ∧ a < 0x200 + rom.length := List.mem_range'_1
  refine ⟨fun hlen => ⟨_, State.construct_of_fits hlen, fun k hk => ?_, fun g r => ?_, fun a ha => ?_,
    State.writeBytes_eq _ _, ?_⟩, fun hlen => if_pos hlen⟩
  · exact State.readByte_writeBytes_zip (k := k) List.nodup_range' (by simp) (by simp [hk, romBase]) (by simp [hk])
  · rw [State.readByte_writeBytes_zip_other (by rw [hrom]; omega), State.readByte_blank, Memory.initial_font]
  · rw [State.readByte_writeBytes_zip_other (by rw [hrom]; omega), State.readByte_blank,
      Memory.initial_outside_font _ (by omega)]
  · have hin : ∀ w ∈ (List.range' romBase rom.length).zip rom, w.1 < memSize := fun w hw => by
      have haddr := (hrom w.1).1 (List.of_mem_zip hw).1
      rw [memSize]
      omega
    simpa using (State.blank cfg).wf_writeBytes _ hin (Memory.wf_nil _)

/-! ### Fetch (40_execution_cycle.md R105): what the word at PC decodes to is what a step runs -/

theorem State.fetchAddrs_of_fetchable {s : State} (h : s.fetchable) :
    s.fetchAddrs = .ok (s.pc.toNat % 4096, (s.pc.toNat + 1) % 4096) := by
  obtain ⟨-, e⟩ | ⟨hp, hle, -⟩ := s.fetchAddrs_spec
  · exact e
  · obtain hm | hpc := h
    · cases hp.symm.trans hm
    · omega

theorem State.fetchAddrs_of_not_fetchable {s : State} (h : ¬ s.fetchable) :
    s.fetchAddrs = .error (.memoryRange (max s.pc.toNat 0x1000) .fetch) := by
  obtain ⟨hin, -⟩ | ⟨-, -, e⟩ := s.fetchAddrs_spec
  · exact absurd hin h
  · exact e

theorem State.cycle_of_fetchable {s : State} {i : Instr} (h : s.fetchable) (hd : decodeWord s.nextWord = .ok i) :
    s.cycle = exec i s.advancePc := by
  obtain ⟨c, hc, -⟩ | ⟨a0, a1, ha, hc⟩ := s.cycle_spec
  · rw [State.fetchAddrs_of_fetchable h] at hc; cases hc
  · rw [State.fetchAddrs_of_fetchable h] at ha
    cases ha
    obtain ⟨j, hj, hc⟩ | ⟨e, he, -⟩ := hc
    · cases hj.symm.trans hd; exact hc
    · cases he.symm.trans hd

/-- A Running block's step is the cycle of the state whose slot has begun. -/
theorem step_of_running {s : State} (hf : s.fault = none) (hw : s.wait = none) : step s = s.beginSlot.cycle := by
  obtain ⟨hs, -⟩ | ⟨-, x, hx, -⟩ | ⟨-, -, hs⟩ := step_spec s
  · simp [hf] at hs
  · simp [hw] at hx
  · exact hs

/-- R104, R107. -/
theorem step_of_decodes {s : State} {i : Instr} (hf : s.fault = none) (hw : s.wait = none) (h : s.fetchable)
    (hd : decodeWord s.nextWord = .ok i) : step s = exec i s.beginSlot.advancePc :=
  (step_of_running hf hw).trans (State.cycle_of_fetchable (by simpa [State.fetchable] using h) (by simpa))

theorem Frame.raise {w : Writes} {s : State} {c : Cause} {p : Word} (h : w.fault = true) : Frame w s (s.raise c p) := by
  constructor <;> simp [h]

/-- Settles O9. -/
theorem fetchOutOfRangeFaults : Obligations.FetchOutOfRangeFaults := by
  intro s hf hw hp hpc
  have hnot : ¬ s.beginSlot.fetchable := by simpa [State.fetchable, hp] using Nat.lt_succ_of_le hpc
  have haddr : (if s.pc.toNat ≤ 0xFFF then s.pc.toNat + 1 else s.pc.toNat) = max s.pc.toNat 0x1000 := by split <;> omega
  obtain ⟨c, hc, hcycle⟩ | ⟨a0, a1, ha, -⟩ := s.beginSlot.cycle_spec
  · rw [State.fetchAddrs_of_not_fetchable hnot] at hc
    cases hc
    refine ⟨_, (step_of_running hf hw).trans hcycle, ?_, rfl, Frame.raise rfl⟩
    rw [haddr]
    simp
  · rw [State.fetchAddrs_of_not_fetchable hnot] at ha
    cases ha

/-- Settles O14: the store of the first step is the word that the second one fetches. -/
theorem storedWordRunsNext : Obligations.StoredWordRunsNext := by
  intro s x i hf hw hfetch hdump hx hI hrange hi
  obtain ⟨-, hstores, -⟩ := dumpRegistersStoresThem x s.beginSlot.advancePc
  obtain ⟨-, t, ht, hbytes, hframe⟩ := hstores (by simpa [State.indexInRange] using hrange)
  have hpc : t.pc = s.pc + 2 := by simpa using hframe.pc rfl
  have hcfg : t.cfg = s.cfg := by simpa using hframe.cfg
  have hword : t.nextWord = wordOfBytes (s.reg 0) (s.reg 1) := by
    have h0 := hbytes 0 (Fin.zero_le x)
    have h1 := hbytes 1 hx
    simp only [State.advancePc_i, State.beginSlot_i, State.advancePc_reg, State.beginSlot_reg, hI, ← hpc] at h0 h1
    exact congrArg₂ wordOfBytes h0 h1
  have hfetch' : t.fetchable := by
    obtain hm | h0 | hle := hrange
    · exact .inl (hcfg ▸ hm)
    · cases h0
    · refine .inr ?_
      rw [hpc, ← hI]
      have : 1 ≤ x.val := hx
      omega
  refine ⟨t, (step_of_decodes hf hw hfetch hdump).trans ht, hpc, step_of_decodes ?_ ?_ hfetch' (hword ▸ hi)⟩
  · simpa [hf] using (hframe.fault rfl).1
  · simpa [hw] using hframe.wait rfl

/-! ### The host's placing of a word (notes/assumptions/16.md) -/

/-- The block made Running: F and W cleared. -/
def State.ready (s : State) : State := { s with wait := none, fault := none }

/-- The two bytes stored where a fetch at PC reads. -/
def State.storeAtPc (s : State) (bytes : List Byte) : State :=
  s.writeBytes ([s.pc.toNat % 4096, (s.pc.toNat + 1) % 4096].zip bytes)

section
variable {s : State}

theorem State.placeInstruction_of_fetchable (h : s.fetchable) (bytes : List Byte) :
    s.placeInstruction bytes = s.ready.storeAtPc bytes := by
  rw [State.placeInstruction, State.fetchAddrs_of_fetchable h]
  rfl

theorem State.placeInstruction_of_not_fetchable (h : ¬ s.fetchable) (bytes : List Byte) :
    s.placeInstruction bytes = (s.ready.setPc 0x200).storeAtPc bytes := by
  rw [State.placeInstruction, State.fetchAddrs_of_not_fetchable h]
  rfl

theorem Frame.ready {w : Writes} (hw : w.wait = true) (hf : w.fault = true) : Frame w s s.ready := by
  constructor <;> simp [State.ready, State.reg, State.readByte, hw, hf]

theorem Frame.storeAtPc {w : Writes} {bytes : List Byte} (h : w.cells = [s.pc.toNat % 4096, (s.pc.toNat + 1) % 4096]) :
    Frame w s (s.storeAtPc bytes) :=
  Frame.writeBytes fun _ hp => h ▸ (List.of_mem_zip hp).1

theorem State.nextWord_storeAtPc (w : Word) : (s.storeAtPc (bytesOfWord w)).nextWord = w := by
  have hne : s.pc.toNat % 4096 ≠ (s.pc.toNat + 1) % 4096 := by omega
  simp [State.nextWord, State.storeAtPc, State.writeBytes, bytesOfWord, hne]

theorem step_storeAtPc {w : Word} {i : Instr} (hf : s.fault = none) (hw : s.wait = none) (h : s.fetchable)
    (hd : decodeWord w = .ok i) :
    step (s.storeAtPc (bytesOfWord w)) = exec i (s.storeAtPc (bytesOfWord w)).beginSlot.advancePc :=
  step_of_decodes (by simpa [State.storeAtPc]) (by simpa [State.storeAtPc]) (by simpa [State.fetchable, State.storeAtPc] using h)
    (by rwa [State.nextWord_storeAtPc])

end

theorem tableWord_16 (w : Nat) : tableWord 16 w = BitVec.ofNat 16 w := by
  apply BitVec.eq_of_toNat_eq
  simp [tableWord]

/-- Settles O7: at either PC the word is stored where the Running block fetches. -/
theorem placedInstructionRunsNext : Obligations.PlacedInstructionRunsNext := by
  intro s w i hd
  rw [State.withFetchWord, tableWord_16]
  by_cases h : s.fetchable
  · rw [State.placeInstruction_of_fetchable h]
    exact ⟨step_storeAtPc rfl rfl h hd, fun _ => (Frame.ready rfl rfl).trans (Frame.storeAtPc rfl), fun hn => absurd h hn⟩
  · rw [State.placeInstruction_of_not_fetchable h]
    refine ⟨step_storeAtPc rfl rfl (.inr (show (0x200 : Word).toNat + 1 ≤ 0xFFF by decide)) hd, fun hy => absurd hy h,
      fun _ => ⟨State.writeBytes_pc _ _, ?_⟩⟩
    exact ((Frame.ready rfl rfl).trans (Frame.setPc rfl)).trans (Frame.storeAtPc rfl)

end Sys2Proof.Machine

/-! ### Words and their fields (30_encoding.md R72, R73): a word is its fields in any of the three formats, and a mask clears a field -/

namespace Sys2Proof

section
variable {w : Word} {op op' n n' : Nibble} {x x' y y' : Reg} {nn nn' : Byte}

theorem regBits_xField (w : Word) : regBits (xField w) = w.extractLsb' 8 4 := rfl

theorem regBits_yField (w : Word) : regBits (yField w) = w.extractLsb' 4 4 := rfl

theorem wordNNN_fields (w : Word) : wordNNN (opField w) (nnnField w) = w := by
  apply BitVec.eq_of_getLsbD_eq
  intro k hk
  rw [getLsbD_wordNNN]
  interval_cases k <;> simp [opField, nnnField]

theorem wordXNN_fields (w : Word) : wordXNN (opField w) (xField w) (nnField w) = w := by
  apply BitVec.eq_of_getLsbD_eq
  intro k hk
  rw [getLsbD_wordXNN, regBits_xField]
  interval_cases k <;> simp [opField, nnField]

theorem wordXYN_fields (w : Word) : wordXYN (opField w) (xField w) (yField w) (nField w) = w := by
  apply BitVec.eq_of_getLsbD_eq
  intro k hk
  rw [getLsbD_wordXYN, regBits_xField, regBits_yField]
  interval_cases k <;> simp [opField, nField]

theorem wordXNN_inj : wordXNN op x nn = wordXNN op' x' nn' ↔ op = op' ∧ x = x' ∧ nn = nn' := by
  refine ⟨fun h => ⟨?_, ?_, ?_⟩, by rintro ⟨rfl, rfl, rfl⟩; rfl⟩
  · simpa using congrArg opField h
  · simpa using congrArg xField h
  · simpa using congrArg nnField h

theorem wordXYN_inj : wordXYN op x y n = wordXYN op' x' y' n' ↔ op = op' ∧ x = x' ∧ y = y' ∧ n = n' := by
  refine ⟨fun h => ⟨?_, ?_, ?_, ?_⟩, by rintro ⟨rfl, rfl, rfl, rfl⟩; rfl⟩
  · simpa using congrArg opField h
  · simpa using congrArg xField h
  · simpa using congrArg yField h
  · simpa using congrArg nField h

/-- The library's `and_allOnes` in the spelling of `decodedBits`. -/
theorem and_allBits (w : Word) : w &&& 0xFFFF = w := BitVec.and_allOnes

theorem wordXYN_and_0xFFF0 (op : Nibble) (x y : Reg) (n : Nibble) : wordXYN op x y n &&& 0xFFF0 = wordXYN op x y 0 := by
  apply BitVec.eq_of_getLsbD_eq
  intro k hk
  rw [BitVec.getLsbD_and, getLsbD_wordXYN, getLsbD_wordXYN]
  interval_cases k <;> simp

theorem wordXYN_and_0xFF0F (op : Nibble) (x y : Reg) (n : Nibble) : wordXYN op x y n &&& 0xFF0F = wordXYN op x 0 n := by
  apply BitVec.eq_of_getLsbD_eq
  intro k hk
  rw [BitVec.getLsbD_and, getLsbD_wordXYN, getLsbD_wordXYN]
  interval_cases k <;> simp [regBits]

/-- A word whose trailing nibble is ignored differs from the assembled one in that nibble alone. -/
theorem and_0xFFF0_eq_iff : w &&& 0xFFF0 = wordXYN op x y 0 ↔ ∃ n, w = wordXYN op x y n := by
  constructor
  · intro h
    rw [← wordXYN_fields w, wordXYN_and_0xFFF0, wordXYN_inj] at h
    obtain ⟨rfl, rfl, rfl, -⟩ := h
    exact ⟨nField w, (wordXYN_fields w).symm⟩
  · rintro ⟨n, rfl⟩
    exact wordXYN_and_0xFFF0 _ _ _ _

theorem and_0xFF0F_eq_iff : w &&& 0xFF0F = wordXYN op x 0 n ↔ ∃ y, w = wordXYN op x y n := by
  constructor
  · intro h
    rw [← wordXYN_fields w, wordXYN_and_0xFF0F, wordXYN_inj] at h
    obtain ⟨rfl, rfl, -, rfl⟩ := h
    exact ⟨yField w, (wordXYN_fields w).symm⟩
  · rintro ⟨y, rfl⟩
    exact wordXYN_and_0xFF0F _ _ _ _

theorem and_0xF0FF_eq_iff : w &&& 0xF0FF = wordXNN op 0 nn ↔ ∃ x, w = wordXNN op x nn := by
  constructor
  · intro h
    rw [← wordXNN_fields w, Laws.TableRow.xnn_and_low, wordXNN_inj] at h
    obtain ⟨rfl, -, rfl⟩ := h
    exact ⟨xField w, (wordXNN_fields w).symm⟩
  · rintro ⟨x, rfl⟩
    exact Laws.TableRow.xnn_and_low _ _ _

end

end Sys2Proof

/-! ### The decoder's groups (30_encoding.md R76 to R82): a group's words, and what it makes of a nibble it ignores (R84) -/

namespace Sys2Proof

section
variable {w : Word}

theorem decodeWord_group0 (h : opField w = 0x0) : decodeWord w = decodeGroup0 w := by simp [decodeWord, h]
theorem decodeWord_group8 (h : opField w = 0x8) : decodeWord w = decodeGroup8 w := by simp [decodeWord, h]
theorem decodeWord_groupE (h : opField w = 0xE) : decodeWord w = decodeGroupE w := by simp [decodeWord, h]
theorem decodeWord_groupF (h : opField w = 0xF) : decodeWord w = decodeGroupF w := by simp [decodeWord, h]

end

section
variable (x y : Reg) (n : Nibble)

theorem decodeWord_wordXNN_0E0 : decodeWord (wordXNN 0x0 x 0xE0) = .ok .clearDisplay := by
  simp [decodeWord_group0, decodeGroup0]

theorem decodeWord_wordXNN_0EE : decodeWord (wordXNN 0x0 x 0xEE) = .ok .ret := by
  simp [decodeWord_group0, decodeGroup0]

theorem decodeWord_wordXYN_5 : decodeWord (wordXYN 0x5 x y n) = .ok (.skipIfRegistersEqual x y) := by
  simp [decodeWord]

theorem decodeWord_wordXYN_9 : decodeWord (wordXYN 0x9 x y n) = .ok (.skipIfRegistersNotEqual x y) := by
  simp [decodeWord]

theorem decodeWord_wordXYN_86 : decodeWord (wordXYN 0x8 x y 0x6) = .ok (.shiftRight x) := by
  simp [decodeWord_group8, decodeGroup8]

theorem decodeWord_wordXYN_8E : decodeWord (wordXYN 0x8 x y 0xE) = .ok (.shiftLeft x) := by
  simp [decodeWord_group8, decodeGroup8]

theorem isStubLowByte_iff {nn : Byte} : isStubLowByte nn = true ↔ nn ≠ 0xE0 ∧ nn ≠ 0xEE := by simp [isStubLowByte]

/-- R78: the escape takes every low byte that is neither clear-display's nor return's. -/
theorem decodeWord_wordNNN_0 {nnn : Addr12} (h : (Instr.systemCallStub nnn).wf = true) :
    decodeWord (wordNNN 0x0 nnn) = .ok (.systemCallStub nnn) := by
  obtain ⟨hE0, hEE⟩ := isStubLowByte_iff.1 h
  rw [decodeWord_group0 (opField_wordNNN _ _), decodeGroup0, nnField_wordNNN, if_neg hE0, if_neg hEE, nnnField_wordNNN]

end

/-- R83: the escape by the low bytes it shuts out, every other word by the fields the encoder put there. -/
theorem decodeWord_encode {i : Instr} (h : i.wf = true) : decodeWord (encode i) = .ok i := by
  cases i
  case systemCallStub => exact decodeWord_wordNNN_0 h
  case clearDisplay | ret => rfl
  case goto | call | skipIfEqual | skipIfNotEqual | skipIfRegistersEqual | setRegister | addImmediate | skipIfRegistersNotEqual |
      setIndex | jumpWithOffset | andRandom | drawSprite =>
    simp [encode, decodeWord]
  case assignRegister | or | and | xor | addRegisters | subtractRegisters | reverseSubtract | shiftRight | shiftLeft =>
    simp [encode, decodeWord_group8, decodeGroup8]
  case skipIfKeyPressed | skipIfKeyNotPressed => simp [encode, decodeWord_groupE, decodeGroupE]
  case getDelayTimer | getKey | setDelayTimer | setSoundTimer | addToIndex | setIndexToFontGlyph | storeBcd | dumpRegisters |
      loadRegisters =>
    simp [encode, decodeWord_groupF, decodeGroupF]

/-- Settles O2: the bytes by the word they make again. -/
theorem decodeEncodeRoundTrip : Obligations.DecodeEncodeRoundTrip := fun i h =>
  ⟨decodeWord_encode h, fun rest => by rw [encodeBytes, decode_bytesOfWord, decodeWord_encode h]⟩

/-! ### The bits a decoded word and its instruction share (30_encoding.md R84, R88) -/

section
variable {w : Word} {i : Instr}

theorem eq_wordNNN {op : Nibble} (hop : opField w = op) : w = wordNNN op (nnnField w) := by
  rw [← hop, wordNNN_fields]

theorem eq_wordXNN {op : Nibble} {nn : Byte} (hop : opField w = op) (hnn : nnField w = nn) : w = wordXNN op (xField w) nn := by
  rw [← hop, ← hnn, wordXNN_fields]

theorem eq_wordXYN {op n : Nibble} (hop : opField w = op) (hn : nField w = n) : w = wordXYN op (xField w) (yField w) n := by
  rw [← hop, ← hn, wordXYN_fields]

theorem encode_of_decodeGroup0 (hop : opField w = 0x0) (h : decodeGroup0 w = .ok i) :
    i.wf = true ∧ w &&& i.decodedBits = encode i := by
  unfold decodeGroup0 at h
  split_ifs at h with hE0 hEE <;> cases h
  · exact ⟨rfl, and_0xF0FF_eq_iff.2 ⟨_, eq_wordXNN hop hE0⟩⟩
  · exact ⟨rfl, and_0xF0FF_eq_iff.2 ⟨_, eq_wordXNN hop hEE⟩⟩
  · have hlow : (nnnField w).extractLsb' 0 8 = nnField w := by rw [← nnField_wordNNN 0x0, ← eq_wordNNN hop]
    exact ⟨isStubLowByte_iff.2 (hlow ▸ ⟨hE0, hEE⟩), (and_allBits w).trans (eq_wordNNN hop)⟩

theorem encode_of_decodeGroup8 (hop : opField w = 0x8) (h : decodeGroup8 w = .ok i) :
    i.wf = true ∧ w &&& i.decodedBits = encode i := by
  have hall {n : Nibble} (hn : nField w = n) : w &&& 0xFFFF = wordXYN 0x8 (xField w) (yField w) n :=
    (and_allBits w).trans (eq_wordXYN hop hn)
  have hshift {n : Nibble} (hn : nField w = n) : w &&& 0xFF0F = wordXYN 0x8 (xField w) 0 n :=
    and_0xFF0F_eq_iff.2 ⟨_, eq_wordXYN hop hn⟩
  simp only [decodeGroup8] at h
  split_ifs at h with h0 h1 h2 h3 h4 h5 h6 h7 hE <;> cases h
  · exact ⟨rfl, hall h0⟩
  · exact ⟨rfl, hall h1⟩
  · exact ⟨rfl, hall h2⟩
  · exact ⟨rfl, hall h3⟩
  · exact ⟨rfl, hall h4⟩
  · exact ⟨rfl, hall h5⟩
  · exact ⟨rfl, hshift h6⟩
  · exact ⟨rfl, hall h7⟩
  · exact ⟨rfl, hshift hE⟩

theorem encode_of_decodeGroupE (hop : opField w = 0xE) (h : decodeGroupE w = .ok i) :
    i.wf = true ∧ w &&& i.decodedBits = encode i := by
  unfold decodeGroupE at h
  split_ifs at h with h9E hA1 <;> cases h
  · exact ⟨rfl, (and_allBits w).trans (eq_wordXNN hop h9E)⟩
  · exact ⟨rfl, (and_allBits w).trans (eq_wordXNN hop hA1)⟩

/-- All nine answers of group 0xF name the register in the second nibble and stand for the low byte that chose them. -/
theorem encode_of_decodeGroupF (hop : opField w = 0xF) (h : decodeGroupF w = .ok i) :
    i.wf = true ∧ w &&& i.decodedBits = encode i := by
  simp only [decodeGroupF] at h
  split_ifs at h <;> cases h
  all_goals exact ⟨rfl, (and_allBits w).trans (eq_wordXNN hop ‹_›)⟩

/-- R76, R77, R79: the groups that dispatch on nothing but the leading nibble. -/
theorem encode_of_plain_group (h : opField w ∈ [0x1, 0x2, 0x3, 0x4, 0x5, 0x6, 0x7, 0x9, 0xA, 0xB, 0xC, 0xD]) :
    ∃ i, decodeWord w = .ok i ∧ i.wf = true ∧ w &&& i.decodedBits = encode i := by
  have hNNN {op : Nibble} (hop : opField w = op) : w &&& 0xFFFF = wordNNN op (nnnField w) :=
    (and_allBits w).trans (eq_wordNNN hop)
  have hXNN {op : Nibble} (hop : opField w = op) : w &&& 0xFFFF = wordXNN op (xField w) (nnField w) :=
    (and_allBits w).trans (eq_wordXNN hop rfl)
  have hXY {op : Nibble} (hop : opField w = op) : w &&& 0xFFF0 = wordXYN op (xField w) (yField w) 0x0 :=
    and_0xFFF0_eq_iff.2 ⟨_, eq_wordXYN hop rfl⟩
  simp only [List.mem_cons, List.not_mem_nil, or_false] at h
  obtain h | h | h | h | h | h | h | h | h | h | h | h := h
  · exact ⟨.goto _, by simp [decodeWord, h], rfl, hNNN h⟩
  · exact ⟨.call _, by simp [decodeWord, h], rfl, hNNN h⟩
  · exact ⟨.skipIfEqual _ _, by simp [decodeWord, h], rfl, hXNN h⟩
  · exact ⟨.skipIfNotEqual _ _, by simp [decodeWord, h], rfl, hXNN h⟩
  · exact ⟨.skipIfRegistersEqual _ _, by simp [decodeWord, h], rfl, hXY h⟩
  · exact ⟨.setRegister _ _, by simp [decodeWord, h], rfl, hXNN h⟩
  · exact ⟨.addImmediate _ _, by simp [decodeWord, h], rfl, hXNN h⟩
  · exact ⟨.skipIfRegistersNotEqual _ _, by simp [decodeWord, h], rfl, hXY h⟩
  · exact ⟨.setIndex _, by simp [decodeWord, h], rfl, hNNN h⟩
  · exact ⟨.jumpWithOffset _, by simp [decodeWord, h], rfl, hNNN h⟩
  · exact ⟨.andRandom _ _, by simp [decodeWord, h], rfl, hXNN h⟩
  · exact ⟨.drawSprite _ _ _, by simp [decodeWord, h], rfl, (and_allBits w).trans (eq_wordXYN h rfl)⟩

theorem group_cases (op : Nibble) :
    op ∈ [0x1, 0x2, 0x3, 0x4, 0x5, 0x6, 0x7, 0x9, 0xA, 0xB, 0xC, 0xD] ∨ op = 0x0 ∨ op = 0x8 ∨ op = 0xE ∨ op = 0xF := by
  decide +revert

theorem encode_of_decodeWord (h : decodeWord w = .ok i) : i.wf = true ∧ w &&& i.decodedBits = encode i := by
  obtain hop | hop | hop | hop | hop := group_cases (opField w)
  · obtain ⟨j, hj, hw⟩ := encode_of_plain_group hop
    cases hj.symm.trans h
    exact hw
  · exact encode_of_decodeGroup0 hop (decodeWord_group0 hop ▸ h)
  · exact encode_of_decodeGroup8 hop (decodeWord_group8 hop ▸ h)
  · exact encode_of_decodeGroupE hop (decodeWord_groupE hop ▸ h)
  · exact encode_of_decodeGroupF hop (decodeWord_groupF hop ▸ h)

/-- A word that agrees with a well-formed instruction's assembled word on the bits the decoder looks at is that word but for the
nibble the decoder ignores. -/
theorem decodeWord_of_decodedBits (hi : i.wf = true) (h : w &&& i.decodedBits = encode i) : decodeWord w = .ok i := by
  cases i
  case clearDisplay =>
    obtain ⟨z, rfl⟩ := (and_0xF0FF_eq_iff (op := 0x0) (nn := 0xE0)).1 h
    exact decodeWord_wordXNN_0E0 z
  case ret =>
    obtain ⟨z, rfl⟩ := (and_0xF0FF_eq_iff (op := 0x0) (nn := 0xEE)).1 h
    exact decodeWord_wordXNN_0EE z
  case skipIfRegistersEqual x y =>
    obtain ⟨n, rfl⟩ := and_0xFFF0_eq_iff.1 h
    exact decodeWord_wordXYN_5 x y n
  case skipIfRegistersNotEqual x y =>
    obtain ⟨n, rfl⟩ := and_0xFFF0_eq_iff.1 h
    exact decodeWord_wordXYN_9 x y n
  case shiftRight x =>
    obtain ⟨z, rfl⟩ := and_0xFF0F_eq_iff.1 h
    exact decodeWord_wordXYN_86 x z
  case shiftLeft x =>
    obtain ⟨z, rfl⟩ := and_0xFF0F_eq_iff.1 h
    exact decodeWord_wordXYN_8E x z
  all_goals
    rw [← and_allBits w]
    exact h ▸ decodeWord_encode hi

end

/-- Settles O3: a word decodes to a well-formed instruction exactly when it is that instruction's word on the bits the decoder
looks at. -/
theorem onlyIgnoredBitsAreDropped : Obligations.OnlyIgnoredBitsAreDropped := fun _ _ h =>
  have ⟨hi, hw⟩ := encode_of_decodeWord h
  ⟨hi, hw, fun _ => decodeWord_of_decodedBits hi⟩

/-! ### The illegal words (30_encoding.md R85) -/

section
variable {w : Word} {e : DecodeError}

theorem ite_ok_eq_error_iff {c : Prop} [Decidable c] {i : Instr} {r : Except DecodeError Instr} :
    (if c then .ok i else r) = .error e ↔ ¬ c ∧ r = .error e := by
  split <;> simp [*]

theorem decodeGroup0_ne_error : decodeGroup0 w ≠ .error e := by
  simp [decodeGroup0, ite_ok_eq_error_iff]

theorem decodeGroup8_eq_error_iff : decodeGroup8 w = .error e ↔
    nField w ∈ [0x8, 0x9, 0xA, 0xB, 0xC, 0xD, 0xF] ∧ e = .unknownOpcode w := by
  have hcompl (n : Nibble) : n ∈ [0x8, 0x9, 0xA, 0xB, 0xC, 0xD, 0xF] ↔
      n ∉ [0x0, 0x1, 0x2, 0x3, 0x4, 0x5, 0x6, 0x7, 0xE] := by
    decide +revert
  rw [hcompl]
  simp [decodeGroup8, ite_ok_eq_error_iff, and_assoc, eq_comm (a := e)]

theorem decodeGroupE_eq_error_iff : decodeGroupE w = .error e ↔ nnField w ∉ [0x9E, 0xA1] ∧ e = .unknownOpcode w := by
  simp [decodeGroupE, ite_ok_eq_error_iff, and_assoc, eq_comm (a := e)]

theorem decodeGroupF_eq_error_iff : decodeGroupF w = .error e ↔
    nnField w ∉ [0x07, 0x0A, 0x15, 0x18, 0x1E, 0x29, 0x33, 0x55, 0x65] ∧ e = .unknownOpcode w := by
  simp [decodeGroupF, ite_ok_eq_error_iff, and_assoc, eq_comm (a := e)]

/-- R85: the three groups that have unrecognized cases. -/
def illegalWord (w : Word) : Prop :=
  (opField w = 0x8 ∧ nField w ∈ [0x8, 0x9, 0xA, 0xB, 0xC, 0xD, 0xF]) ∨
    (opField w = 0xE ∧ nnField w ∉ [0x9E, 0xA1]) ∨
    (opField w = 0xF ∧ nnField w ∉ [0x07, 0x0A, 0x15, 0x18, 0x1E, 0x29, 0x33, 0x55, 0x65])

theorem decodeWord_eq_error_iff : decodeWord w = .error e ↔ illegalWord w ∧ e = .unknownOpcode w := by
  obtain hop | hop | hop | hop | hop := group_cases (opField w)
  · obtain ⟨i, hi, -⟩ := encode_of_plain_group hop
    have hno : ¬ illegalWord w := by
      rintro (⟨h, -⟩ | ⟨h, -⟩ | ⟨h, -⟩) <;> rw [h] at hop <;> revert hop <;> decide
    simp [hi, hno]
  · simp [decodeWord_group0 hop, decodeGroup0_ne_error, illegalWord, hop]
  · simp [decodeWord_group8 hop, decodeGroup8_eq_error_iff, illegalWord, hop]
  · simp [decodeWord_groupE hop, decodeGroupE_eq_error_iff, illegalWord, hop]
  · simp [decodeWord_groupF hop, decodeGroupF_eq_error_iff, illegalWord, hop]

end

/-- Settles O4: group by group. -/
theorem illegalWordsAreExactlyThese : Obligations.IllegalWordsAreExactlyThese := fun _ =>
  ⟨decodeWord_eq_error_iff.trans (and_iff_left rfl), fun _ h => (decodeWord_eq_error_iff.1 h).2⟩

/-- Settles O1: each word's fields are computed. -/
theorem specWordsDecode : Obligations.SpecWordsDecode := by
  unfold Obligations.SpecWordsDecode
  decide

end Sys2Proof

/-! ### Control transfer, key skips and shifts (41_control.md R120, R121; 46_timers_keys.md R231, R232; 43_alu.md R169, R171) -/

namespace Sys2Proof.Machine

/-- Settles O26. -/
theorem systemCallStubDoesNothing : Obligations.SystemCallStubDoesNothing := fun _ _ => ⟨decodeWord_wordNNN_0, rfl⟩

theorem State.top_of_stack_eq_nil {s : State} (h : s.stack = []) : s.top = none := by simp [State.top, h]

/-- Settles O27: the three answers a return can give. -/
theorem returnPopsOrFollowsPolicy : Obligations.ReturnPopsOrFollowsPolicy := by
  intro z s
  refine ⟨decodeWord_wordXNN_0EE z, fun rest a hs => ?_, fun hs hp => ?_, fun hs hp => ?_⟩
  · have htop : s.top = some a := by simp [State.top, hs]
    exact ⟨_, exec_ret_iff.2 (.inl ⟨a, htop, rfl⟩), rfl, by simp [hs], (Frame.dropTop rfl).trans (Frame.setPc rfl)⟩
  · exact exec_ret_iff.2 (.inr (.inl ⟨State.top_of_stack_eq_nil hs, hp, rfl⟩))
  · exact ⟨_, exec_ret_iff.2 (.inr (.inr ⟨State.top_of_stack_eq_nil hs, hp, rfl⟩)), rfl, rfl, Frame.raiseInExecute rfl⟩

/-- R140: the skip wraps at the top of PC's range. -/
theorem State.toNat_skipIf_pc (s : State) (c : Bool) :
    (s.skipIf c).pc.toNat = if c then (s.pc.toNat + 2) % 65536 else s.pc.toNat := by
  rw [State.skipIf_pc, apply_ite BitVec.toNat]
  rfl

/-- R140, R231, R232: a key skip asks the port once and moves PC as the condition on its answer says. -/
theorem State.keySkip_spec (s : State) (c : Bool) :
    ((s.afterKeyQuery.skipIf c).pc.toNat = if c then (s.pc.toNat + 2) % 65536 else s.pc.toNat) ∧
      (s.afterKeyQuery.skipIf c).requests = s.requests + 1 ∧ (s.afterKeyQuery.skipIf c).keyAnswers = s.keyAnswers.tail ∧
      (s.afterKeyQuery.skipIf c).pendingAnswers = s.pendingAnswers ∧
      (s.afterKeyQuery.skipIf c).randomAnswers = s.randomAnswers ∧
      Frame { pc := true, requests := true } s (s.afterKeyQuery.skipIf c) := by
  refine ⟨State.toNat_skipIf_pc _ c, ?_, ?_, ?_, ?_, (Frame.afterKeyQuery rfl).trans (Frame.skipIf rfl)⟩ <;> simp

/-- Settles O33: the two skips differ in the condition alone. -/
theorem keySkips : Obligations.KeySkips := by
  intro x s
  refine ⟨?_, ⟨_, rfl, s.keySkip_spec _⟩, ?_, ⟨_, rfl, ?_⟩⟩
  · simp [decodeWord_groupE, decodeGroupE]
  · simp [decodeWord_groupE, decodeGroupE]
  · simpa using s.keySkip_spec (!s.keyAnswer (s.reg x))

theorem toNat_lowBitFlag (a : Byte) : (lowBitFlag a).toNat = a.toNat % 2 := by
  rw [lowBitFlag, BitVec.toNat_and]
  exact Nat.and_one_is_mod _

theorem toNat_highBitFlag (a : Byte) : (highBitFlag a).toNat = a.toNat / 128 := by
  have ha : a.toNat < 256 := a.isLt
  rw [highBitFlag, BitVec.toNat_and, BitVec.toNat_ushiftRight, Nat.shiftRight_eq_div_pow]
  refine (Nat.and_one_is_mod _).trans ?_
  omega

/-- R169, R171: what a shift leaves in Vx under SHIFT_COMMIT and in VF unless the shifted value takes its place. -/
theorem State.setShift_spec (s : State) (f : Byte) (x : Reg) (r : Byte) :
    (s.cfg.shiftCommit = true → (s.setShift f x r).reg x = r) ∧
      (s.cfg.shiftCommit = false ∨ x ≠ VF → (s.setShift f x r).reg VF = f) := by
  constructor
  · intro h
    simp [State.reg_setShift, h]
  · rintro (h | h)
    · simp [State.reg_setShift, h]
    · simp [State.reg_setShift, h.symm]

/-- Settles O38. -/
theorem shiftsMoveOneBit : Obligations.ShiftsMoveOneBit := by
  intro x z s
  obtain ⟨hr, hrf⟩ := s.setShift_spec (lowBitFlag (s.reg x)) x (s.reg x >>> 1)
  obtain ⟨hl, hlf⟩ := s.setShift_spec (highBitFlag (s.reg x)) x (s.reg x <<< 1)
  refine ⟨decodeWord_wordXYN_86 x z, ⟨_, rfl, fun h => ?_, fun h => ?_, exec_frame (i := .shiftRight x) rfl⟩,
    decodeWord_wordXYN_8E x z, ⟨_, rfl, fun h => ?_, fun h => ?_, exec_frame (i := .shiftLeft x) rfl⟩⟩
  · rw [hr h]; simp [Nat.shiftRight_eq_div_pow]
  · exact (congrArg BitVec.toNat (hrf h)).trans (toNat_lowBitFlag _)
  · rw [hl h]; simp [Nat.shiftLeft_eq]
  · exact (congrArg BitVec.toNat (hlf h)).trans (toNat_highBitFlag _)

end Sys2Proof.Machine

/-! ### The cycle (40_execution_cycle.md R104, R106): its three ways to go on, each from what fetch and decode answered -/

namespace Sys2Proof.Machine

section
variable {s t : State} {a0 a1 : Nat}

theorem State.cycle_of_fetch_error {c : Cause} (h : s.fetchAddrs = .error c) : s.cycle = .next (s.raise c s.pc) := by
  simp [State.cycle, State.fetch, h]

theorem State.cycle_of_decode_ok {i : Instr} (h : s.fetchAddrs = .ok (a0, a1))
    (hd : decodeWord (wordOfBytes (s.readByte a0) (s.readByte a1)) = .ok i) : s.cycle = exec i s.advancePc := by
  simp [State.cycle, State.fetch, h, hd]

theorem State.cycle_of_decode_error {e : DecodeError} (h : s.fetchAddrs = .ok (a0, a1))
    (hd : decodeWord (wordOfBytes (s.readByte a0) (s.readByte a1)) = .error e) :
    s.cycle = .next (s.advancePc.raise (.unknownOpcode (wordOfBytes (s.readByte a0) (s.readByte a1))) s.pc) := by
  simp [State.cycle, State.fetch, h, hd]

end

theorem Frame.advancePc {w : Writes} {s : State} (h : w.pc = true) : Frame w s s.advancePc := Frame.setPc h

/-- Settles O5. -/
theorem stepRunsDecodedInstruction : Obligations.StepRunsDecodedInstruction := fun s _ hf hw hfetch hd =>
  ⟨step_of_decodes hf hw hfetch hd, congrArg (· + 2) s.beginSlot_pc, Frame.advancePc rfl⟩

/-- Settles O10: fetch has moved PC on before the decoder refuses the word. -/
theorem unknownWordFaults : Obligations.UnknownWordFaults := by
  intro s hf hw hfetch hd
  have haddr := State.fetchAddrs_of_fetchable (s := s.beginSlot) (by simpa [State.fetchable] using hfetch)
  have hcycle := State.cycle_of_decode_error haddr (by simpa [State.nextWord] using hd)
  exact ⟨_, (step_of_running hf hw).trans hcycle, by simp [State.nextWord], by simp, rfl,
    (Frame.advancePc rfl).trans (Frame.raise rfl)⟩

/-! ### The poll (40_execution_cycle.md R108) -/

section
variable {w : Writes} {s : State} {x : Reg}

theorem State.poll_of_key {k : Key} (h : s.pendingAnswer = some k) :
    s.poll x = (s.afterPendingQuery.setReg x (BitVec.ofNat 8 k.val)).setWait none := by simp [State.poll, h]

theorem State.poll_of_no_key (h : s.pendingAnswer = none) : s.poll x = s.afterPendingQuery := by simp [State.poll, h]

theorem Frame.afterPendingQuery (h : w.requests = true) : Frame w s s.afterPendingQuery := by constructor <;> simp [h]

@[simp] theorem State.pendingAnswer_beginSlot (s : State) : s.beginSlot.pendingAnswer = s.pendingAnswer := by
  simp [State.pendingAnswer]

end

theorem toNat_key (k : Key) : (BitVec.ofNat 8 k.val).toNat = k.val := by
  rw [BitVec.toNat_ofNat]
  omega

/-- A Waiting block's step is the poll of the state whose slot has begun. -/
theorem step_of_waiting {s : State} {x : Reg} (hf : s.fault = none) (hw : s.wait = some x) :
    step s = .next (s.beginSlot.poll x) := by
  obtain ⟨hs, -⟩ | ⟨-, y, hy, hs⟩ | ⟨-, hn, -⟩ := step_spec s
  · simp [hf] at hs
  · cases hy.symm.trans hw; exact hs
  · cases hn.symm.trans hw

/-- Settles O8: the poll by the port's two answers. -/
theorem waitingSlotPolls : Obligations.WaitingSlotPolls := by
  intro s x hf hw
  refine ⟨_, step_of_waiting hf hw, fun k hk => ?_, fun hn => ?_, ?_, ?_, ?_, ?_⟩
  · rw [State.poll_of_key (s.pendingAnswer_beginSlot.trans hk)]
    refine ⟨?_, rfl, ((Frame.afterPendingQuery rfl).trans (Frame.setReg (List.mem_singleton_self x))).trans (Frame.setWait rfl)⟩
    rw [State.setWait_reg, State.reg_setReg_same, toNat_key]
  · rw [State.poll_of_no_key (s.pendingAnswer_beginSlot.trans hn)]
    exact Frame.afterPendingQuery rfl
  all_goals simp

/-! ### Every instruction and slot answers a next state (R250, R258) -/

theorem State.transfer_answers (s : State) (count : Nat) (kind : AccessKind) (act : List Nat → State) :
    ∃ t, s.Transfer count kind act t := by
  cases h : s.indexed count kind with
  | error c => exact ⟨_, .faults h⟩
  | ok as => exact ⟨_, .acts h⟩

/-- The six meanings that branch answer on each branch; the others have one answer. -/
theorem exec_answers (i : Instr) (s : State) : ∃ t, exec i s = .next t := by
  cases i
  case ret =>
    cases htop : s.top with
    | some a => exact ⟨_, exec_ret_iff.2 (.inl ⟨a, htop, rfl⟩)⟩
    | none =>
      cases hp : s.cfg.emptyRet with
      | noop => exact ⟨_, exec_ret_iff.2 (.inr (.inl ⟨htop, hp, rfl⟩))⟩
      | fault => exact ⟨_, exec_ret_iff.2 (.inr (.inr ⟨htop, hp, rfl⟩))⟩
  case call =>
    cases hd : s.fullDepth with
    | some d => exact ⟨_, exec_call_iff.2 (.inl ⟨d, hd, rfl⟩)⟩
    | none => exact ⟨_, exec_call_iff.2 (.inr ⟨hd, rfl⟩)⟩
  case drawSprite => exact (s.transfer_answers _ _ _).imp fun _ => exec_drawSprite_iff.2
  case storeBcd => exact (s.transfer_answers _ _ _).imp fun _ => exec_storeBcd_iff.2
  case dumpRegisters => exact (s.transfer_answers _ _ _).imp fun _ => exec_dumpRegisters_iff.2
  case loadRegisters => exact (s.transfer_answers _ _ _).imp fun _ => exec_loadRegisters_iff.2
  all_goals exact ⟨_, rfl⟩

theorem State.cycle_answers (s : State) : ∃ t, s.cycle = .next t := by
  obtain ⟨c, -, hc⟩ | ⟨a0, a1, -, ⟨i, -, hc⟩ | ⟨e, -, hc⟩⟩ := s.cycle_spec
  · exact ⟨_, hc⟩
  · exact (exec_answers i _).imp fun _ => hc.trans
  · exact ⟨_, hc⟩

theorem State.slotBody_of_waiting {s : State} {x : Reg} (h : s.wait = some x) : s.slotBody = .next (s.poll x) := by
  simp [State.slotBody, h]

theorem State.slotBody_of_not_waiting {s : State} (h : s.wait = none) : s.slotBody = s.cycle := by simp [State.slotBody, h]

theorem State.slotBody_answers (s : State) : ∃ t, s.slotBody = .next t := by
  cases hw : s.wait with
  | some x => exact ⟨_, State.slotBody_of_waiting hw⟩
  | none => exact s.cycle_answers.imp fun _ => (State.slotBody_of_not_waiting hw).trans

/-! ### The slot count (R38, notes/assumptions/14.md): nothing in a slot reads it, and nothing but a fault writes it -/

/-- The state at slot count k, at 0 if it is faulted: what the count is after a fault. -/
def State.atSlot (s : State) (k : Nat) : State := { s with slot := if s.fault.isSome then 0 else k }

section
variable {s t : State} {i : Instr} (k : Nat)

theorem State.atSlot_of_fault_eq_none (h : s.fault = none) : s.atSlot k = { s with slot := k } := by simp [State.atSlot, h]

theorem State.atSlot_of_isSome_fault (hf : s.fault.isSome) (hs : s.slot = 0) : s.atSlot k = s := by
  simp [State.atSlot, hf, ← hs]

theorem State.atSlot_zero (hs : s.slot = 0) : s.atSlot 0 = s := by simp [State.atSlot, ← hs]

theorem State.skipIf_atSlot (s : State) (c : Bool) : (s.atSlot k).skipIf c = (s.skipIf c).atSlot k := by
  cases c <;> rfl

theorem State.setShift_atSlot (s : State) (f : Byte) (x : Reg) (r : Byte) :
    (s.atSlot k).setShift f x r = (s.setShift f x r).atSlot k := by
  unfold State.setShift
  rw [apply_ite (State.atSlot · k)]
  rfl

theorem State.writeBytes_atSlot (ws : List (Nat × Byte)) : (s.atSlot k).writeBytes ws = (s.writeBytes ws).atSlot k := by
  induction ws generalizing s with
  | nil => rfl
  | cons p ws ih => exact ih (s := s.writeByte p.1 p.2)

theorem State.loadRegs_atSlot (ls : List (Reg × Byte)) : (s.atSlot k).loadRegs ls = (s.loadRegs ls).atSlot k := by
  induction ls generalizing s with
  | nil => rfl
  | cons p ls ih => exact ih (s := s.setReg p.1 p.2)

theorem State.poll_atSlot (s : State) (x : Reg) : (s.atSlot k).poll x = (s.poll x).atSlot k := by
  cases h : s.pendingAnswer with
  | none => rw [State.poll_of_no_key h]; exact State.poll_of_no_key h
  | some j => rw [State.poll_of_key h]; exact State.poll_of_key h

theorem State.Transfer.atSlot {count : Nat} {kind : AccessKind} {act act' : List Nat → State}
    (h : s.Transfer count kind act t) (hact : ∀ as, act' as = (act as).atSlot k) :
    (s.atSlot k).Transfer count kind act' (t.atSlot k) := by
  cases h with
  | faults hc => exact .faults hc
  | acts has => exact hact _ ▸ .acts has

/-- An instruction commutes with a change of the slot count: a raise brings it to 0 from wherever it was. -/
theorem exec_atSlot (h : exec i s = .next t) : exec i (s.atSlot k) = .next (t.atSlot k) := by
  cases i
  case ret =>
    refine exec_ret_iff.2 ?_
    obtain ⟨a, ha, rfl⟩ | ⟨hn, hp, rfl⟩ | ⟨hn, hp, rfl⟩ := exec_ret_iff.1 h
    · exact .inl ⟨a, ha, rfl⟩
    · exact .inr (.inl ⟨hn, hp, rfl⟩)
    · exact .inr (.inr ⟨hn, hp, rfl⟩)
  case call =>
    refine exec_call_iff.2 ?_
    obtain ⟨d, hd, rfl⟩ | ⟨hn, rfl⟩ := exec_call_iff.1 h
    · exact .inl ⟨d, hd, rfl⟩
    · exact .inr ⟨hn, rfl⟩
  case skipIfEqual | skipIfNotEqual | skipIfRegistersEqual | skipIfRegistersNotEqual =>
    cases h; exact congrArg Host.Outcome.next (s.skipIf_atSlot k _)
  case skipIfKeyPressed | skipIfKeyNotPressed =>
    cases h; exact congrArg Host.Outcome.next (s.afterKeyQuery.skipIf_atSlot k _)
  case shiftRight | shiftLeft => cases h; exact congrArg Host.Outcome.next (s.setShift_atSlot k _ _ _)
  case drawSprite => exact exec_drawSprite_iff.2 ((exec_drawSprite_iff.1 h).atSlot k fun _ => rfl)
  case storeBcd => exact exec_storeBcd_iff.2 ((exec_storeBcd_iff.1 h).atSlot k fun _ => State.writeBytes_atSlot k _)
  case dumpRegisters =>
    exact exec_dumpRegisters_iff.2 ((exec_dumpRegisters_iff.1 h).atSlot k fun _ => State.writeBytes_atSlot k _)
  case loadRegisters =>
    exact exec_loadRegisters_iff.2 ((exec_loadRegisters_iff.1 h).atSlot k fun _ => State.loadRegs_atSlot k _)
  all_goals cases h; rfl

theorem State.cycle_atSlot (h : s.cycle = .next t) : (s.atSlot k).cycle = .next (t.atSlot k) := by
  obtain ⟨c, ha, hc⟩ | ⟨a0, a1, ha, ⟨i, hd, hc⟩ | ⟨e, hd, hc⟩⟩ := s.cycle_spec <;> rw [hc] at h
  · cases h; exact State.cycle_of_fetch_error ha
  · exact (State.cycle_of_decode_ok (s := s.atSlot k) ha hd).trans (exec_atSlot k h)
  · cases h; exact State.cycle_of_decode_error ha hd

theorem State.slotBody_atSlot (h : s.slotBody = .next t) : (s.atSlot k).slotBody = .next (t.atSlot k) := by
  cases hw : s.wait with
  | some x =>
    rw [State.slotBody_of_waiting hw] at h
    cases h
    exact (State.slotBody_of_waiting (s := s.atSlot k) hw).trans (congrArg Host.Outcome.next (s.poll_atSlot k x))
  | none =>
    rw [State.slotBody_of_not_waiting hw] at h
    exact (State.slotBody_of_not_waiting (s := s.atSlot k) hw).trans (State.cycle_atSlot k h)

end

theorem exec_keeps_slot_zero {i : Instr} {s t : State} (h : exec i s = .next t) (hs : s.slot = 0) : t.slot = 0 := by
  obtain ⟨-, ht⟩ | ⟨c, -, rfl⟩ := exec_keeps_fault_or_raises h
  · exact ht.trans hs
  · rfl

theorem State.cycle_keeps_slot_zero {s t : State} (h : s.cycle = .next t) (hs : s.slot = 0) : t.slot = 0 := by
  obtain ⟨i, -, hi⟩ | ⟨c, -, rfl | rfl⟩ := State.cycle_cases h
  · exact exec_keeps_slot_zero hi hs
  · rfl
  · rfl

theorem State.slotBody_keeps_slot_zero {s t : State} (h : s.slotBody = .next t) (hs : s.slot = 0) : t.slot = 0 := by
  cases hw : s.wait with
  | some x =>
    rw [State.slotBody_of_waiting hw] at h
    cases h
    simpa
  | none => exact State.cycle_keeps_slot_zero ((State.slotBody_of_not_waiting hw).symm.trans h) hs

/-! ### A run of steps against the slots of a tick (R102, R111) -/

theorem State.runSlots_of_isSome_fault {s : State} (n : Nat) (h : s.fault.isSome) : s.runSlots n = .next s := by
  obtain ⟨f, hf⟩ := Option.isSome_iff_exists.1 h
  cases n <;> simp [State.runSlots, hf]

theorem core_run_succ {s t : State} (n : Nat) (h : step s = .next t) :
    Sys2Proof.core.run (n + 1) s = Sys2Proof.core.run n t := by
  simp [Host.Core.run, Sys2Proof.core, h]

theorem core_run_of_isSome_fault {s : State} (n : Nat) (h : s.fault.isSome) : Sys2Proof.core.run n s = .next s := by
  obtain ⟨f, hf⟩ := Option.isSome_iff_exists.1 h
  obtain ⟨-, -, hstep, -⟩ := faultedBlockIsInert s f hf
  induction n with
  | zero => rfl
  | succ n ih => exact (core_run_succ n hstep).trans ih

/-- The slot count of a tick of c slots with n of them still to begin. -/
def slotBefore (c n : Nat) : Nat := if n = 0 then 0 else c - n

theorem slotBefore_all (c : Nat) : slotBefore c c = 0 := by simp [slotBefore]

theorem slotBefore_ne_zero {c n : Nat} (h : n + 1 < c) : slotBefore c (n + 1) ≠ 0 := by
  rw [slotBefore, if_neg n.succ_ne_zero]
  omega

theorem slotBefore_next {c n : Nat} (h : n < c) :
    (if slotBefore c (n + 1) + 1 < c then slotBefore c (n + 1) + 1 else 0) = slotBefore c n := by
  simp only [slotBefore, n.succ_ne_zero, if_false]
  split <;> split <;> omega

section
variable {s u : State} {n k : Nat}

theorem step_of_no_fault (hf : s.fault = none) : step s = s.beginSlot.slotBody := by simp [step, State.runSlot, hf]

theorem State.countSlot_of_slotBefore (hf : s.fault = none) (hn : n < s.cfg.cyclesPerTick)
    (hs : s.slot = slotBefore s.cfg.cyclesPerTick (n + 1)) :
    s.countSlot = s.atSlot (slotBefore s.cfg.cyclesPerTick n) := by
  rw [State.atSlot_of_fault_eq_none _ hf, ← slotBefore_next hn, ← hs]
  rfl

/-- The first slot counts the timers down (R103). -/
theorem step_first_slot (hf : s.fault = none) (hs : s.slot = 0) (hn : s.cfg.cyclesPerTick = n + 1) :
    step s = (s.decrementTimers.atSlot (slotBefore s.cfg.cyclesPerTick n)).slotBody := by
  have hslot : s.decrementTimers.slot = slotBefore s.cfg.cyclesPerTick (n + 1) := by simp [hs, hn, slotBefore_all]
  rw [step_of_no_fault hf, State.beginSlot, if_pos hs]
  exact congrArg State.slotBody (State.countSlot_of_slotBefore (s := s.decrementTimers) hf (hn ▸ n.lt_succ_self) hslot)

theorem step_later_slot (hf : u.fault = none) (hn : n + 1 < u.cfg.cyclesPerTick) :
    step (u.atSlot (slotBefore u.cfg.cyclesPerTick (n + 1))) = (u.atSlot (slotBefore u.cfg.cyclesPerTick n)).slotBody := by
  have hslot : (u.atSlot (slotBefore u.cfg.cyclesPerTick (n + 1))).slot = slotBefore u.cfg.cyclesPerTick (n + 1) := by
    rw [State.atSlot_of_fault_eq_none _ hf]
  rw [step_of_no_fault (s := u.atSlot _) hf, State.beginSlot, if_neg (ne_of_eq_of_ne hslot (slotBefore_ne_zero hn))]
  exact congrArg State.slotBody (State.countSlot_of_slotBefore (s := u.atSlot _) hf (Nat.lt_of_succ_lt hn) hslot)

/-- A step that does a slot's body at count k is the tick's next slot, if the rest of the run is the rest of the tick. -/
theorem core_run_succ_eq_runSlots (hf : u.fault = none) (hstep : step s = (u.atSlot k).slotBody)
    (hrest : ∀ t, u.slotBody = .next t → Sys2Proof.core.run n (t.atSlot k) = t.runSlots n) :
    Sys2Proof.core.run (n + 1) s = u.runSlots (n + 1) := by
  obtain ⟨t, ht⟩ := u.slotBody_answers
  have hslots : u.runSlots (n + 1) = t.runSlots n := by simp [State.runSlots, hf, ht]
  exact ((core_run_succ n (hstep.trans (State.slotBody_atSlot k ht))).trans (hrest t ht)).trans hslots.symm

theorem core_run_eq_runSlots (hs : u.slot = 0) (hn : n < u.cfg.cyclesPerTick) :
    Sys2Proof.core.run n (u.atSlot (slotBefore u.cfg.cyclesPerTick n)) = u.runSlots n := by
  induction n generalizing u with
  | zero => exact congrArg Host.Outcome.next (State.atSlot_zero hs)
  | succ n ih =>
    cases hf : u.fault with
    | some f =>
      have hsome : u.fault.isSome := by simp [hf]
      rw [State.atSlot_of_isSome_fault _ hsome hs]
      exact (core_run_of_isSome_fault _ hsome).trans (State.runSlots_of_isSome_fault _ hsome).symm
    | none =>
      refine core_run_succ_eq_runSlots hf (step_later_slot hf hn) fun t ht => ?_
      have hcfg := State.slotBody_keeps_cfg ht
      rw [← hcfg]
      exact ih (State.slotBody_keeps_slot_zero ht hs) (hcfg ▸ Nat.lt_of_succ_lt hn)

end

/-- Settles O12: the first slot with its timer decrement, then the others by induction on how many are left. The tick keeps the
slot count at 0 where the steps count on. -/
theorem tickIsItsBudgetOfSteps : Obligations.TickIsItsBudgetOfSteps := by
  intro s hs hc
  cases hf : s.fault with
  | some f =>
    obtain ⟨-, -, -, htick⟩ := faultedBlockIsInert s f hf
    exact (core_run_of_isSome_fault _ (by simp [hf])).trans htick.symm
  | none =>
    obtain ⟨n, hn⟩ := Nat.exists_eq_add_of_le' hc
    have htick : s.tick = s.decrementTimers.runSlots (n + 1) := by simp [State.tick, hf, hn]
    rw [htick, hn]
    refine core_run_succ_eq_runSlots (u := s.decrementTimers) hf (step_first_slot hf hs hn) fun t ht => ?_
    have hcfg : t.cfg = s.cfg := State.slotBody_keeps_cfg (s := s.decrementTimers) ht
    rw [← hcfg]
    exact core_run_eq_runSlots (State.slotBody_keeps_slot_zero ht hs) (by rw [hcfg, hn]; exact n.lt_succ_self)

end Sys2Proof.Machine

/-! ### Jumps and calls (41_control.md R122 to R124) -/

namespace Sys2Proof.Machine

theorem toNat_addrOperand (nnn : Addr12) : (addrOperand nnn).toNat = nnn.toNat :=
  BitVec.toNat_setWidth_of_le (by decide)

/-- R124: the largest sum is 0x10FE, so nothing wraps. -/
theorem State.toNat_offsetTarget (s : State) (nnn : Addr12) : (s.offsetTarget nnn).toNat = nnn.toNat + (s.reg 0).toNat := by
  have hv : ((s.reg 0).setWidth 16).toNat = (s.reg 0).toNat := BitVec.toNat_setWidth_of_le (by decide)
  have hnnn : nnn.toNat < 4096 := nnn.isLt
  have hreg : (s.reg 0).toNat < 256 := (s.reg 0).isLt
  rw [State.offsetTarget, BitVec.toNat_add, toNat_addrOperand, hv]
  exact Nat.mod_eq_of_lt (by omega)

theorem State.fullDepth_eq_none_iff (s : State) : s.fullDepth = none ↔ s.cfg.stackDepth ≠ some s.stack.length := by
  rw [Option.eq_none_iff_forall_ne_some]
  constructor
  · exact fun h hd => h _ ((s.fullDepth_spec _).2 ⟨hd, rfl⟩)
  · intro h d hd
    obtain ⟨hdepth, rfl⟩ := (s.fullDepth_spec d).1 hd
    exact h hdepth

/-- Settles O28. -/
theorem gotoSetsPc : Obligations.GotoSetsPc := fun nnn _ =>
  ⟨decodeWord_encode (i := .goto nnn) rfl, _, rfl, toNat_addrOperand nnn, Frame.setPc rfl⟩

/-- Settles O29: the two answers a call can give. -/
theorem callPushesReturnAddress : Obligations.CallPushesReturnAddress := by
  intro nnn s
  refine ⟨decodeWord_encode (i := .call nnn) rfl, fun hroom => ?_, fun hfull => ?_⟩
  · have hnone : s.fullDepth = none := s.fullDepth_eq_none_iff.2 hroom
    exact ⟨_, exec_call_iff.2 (.inr ⟨hnone, rfl⟩), rfl, toNat_addrOperand nnn, (Frame.push rfl).trans (Frame.setPc rfl)⟩
  · have hsome : s.fullDepth = some s.stack.length := (s.fullDepth_spec _).2 ⟨hfull, rfl⟩
    exact ⟨_, exec_call_iff.2 (.inl ⟨_, hsome, rfl⟩), rfl, rfl, Frame.raiseInExecute rfl⟩

/-- Settles O30. -/
theorem jumpWithOffsetAddsV0 : Obligations.JumpWithOffsetAddsV0 := fun nnn s =>
  ⟨decodeWord_encode (i := .jumpWithOffset nnn) rfl, _, rfl, s.toNat_offsetTarget nnn, Frame.setPc rfl⟩

end Sys2Proof.Machine

/-! ### Skips on a comparison (R140 to R144) -/

namespace Sys2Proof.Machine

/-- R140: a skip whose Boolean condition decides p moves PC by 2 when p holds, and changes nothing else. -/
theorem State.skipIf_spec (s : State) {c : Bool} {p : Prop} [Decidable p] (h : c = true ↔ p) :
    (s.skipIf c).pc.toNat = (if p then (s.pc.toNat + 2) % 65536 else s.pc.toNat) ∧ Frame { pc := true } s (s.skipIf c) :=
  ⟨by simp only [State.toNat_skipIf_pc, h], Frame.skipIf rfl⟩

/-- Settles O31: the two comparisons with nn. -/
theorem immediateSkips : Obligations.ImmediateSkips := fun x nn s =>
  ⟨decodeWord_encode (i := .skipIfEqual x nn) rfl, ⟨_, rfl, s.skipIf_spec beq_iff_eq⟩,
    decodeWord_encode (i := .skipIfNotEqual x nn) rfl, ⟨_, rfl, s.skipIf_spec bne_iff_ne⟩⟩

/-- Settles O32: the two comparisons of registers; the decoder drops the trailing nibble. -/
theorem registerSkips : Obligations.RegisterSkips := fun x y n s =>
  ⟨decodeWord_wordXYN_5 x y n, ⟨_, rfl, s.skipIf_spec beq_iff_eq⟩,
    decodeWord_wordXYN_9 x y n, ⟨_, rfl, s.skipIf_spec bne_iff_ne⟩⟩

end Sys2Proof.Machine

/-! ### Register arithmetic and logic (43_alu.md R161 to R168, R170, R172) -/

namespace Sys2Proof.Machine

theorem flag_decide (p : Prop) [Decidable p] : flag (decide p) = if p then 1 else 0 := by
  simp only [flag, decide_eq_true_eq]

/-- R160, D8: the result is in Vx, and the flag is in VF unless the result has taken its place. -/
theorem State.setFlagThenResult_spec (s : State) (f : Byte) (x : Reg) (r : Byte) :
    (s.setFlagThenResult f x r).reg x = r ∧ (x ≠ VF → (s.setFlagThenResult f x r).reg VF = f) := by
  constructor
  · simp [State.reg_setFlagThenResult]
  · intro h
    simp [State.reg_setFlagThenResult, h.symm]

theorem toNat_byte_sub (a b : Byte) : (a - b).toNat = (a.toNat + 256 - b.toNat) % 256 := by
  have hb : b.toNat < 256 := b.isLt
  rw [BitVec.toNat_sub]
  congr 1
  omega

/-- R168, R170: what either subtraction leaves in Vx and VF, a the minuend and b the subtrahend. -/
theorem State.setFlagThenResult_sub_spec (s : State) (x : Reg) (a b : Byte) :
    ((s.setFlagThenResult (greaterFlag a b) x (a - b)).reg x).toNat = (a.toNat + 256 - b.toNat) % 256 ∧
      (x ≠ VF → (s.setFlagThenResult (greaterFlag a b) x (a - b)).reg VF = if b.toNat < a.toNat then 1 else 0) := by
  obtain ⟨hx, hVF⟩ := s.setFlagThenResult_spec (greaterFlag a b) x (a - b)
  exact ⟨by rw [hx, toNat_byte_sub], fun h => (hVF h).trans (flag_decide _)⟩

/-- Settles O34. -/
theorem loadsAndImmediateAdd : Obligations.LoadsAndImmediateAdd := by
  intro x y nn s
  refine ⟨decodeWord_encode (i := .setRegister x nn) rfl, ⟨_, rfl, ?_, Frame.setReg (List.mem_singleton_self x)⟩,
    decodeWord_encode (i := .addImmediate x nn) rfl, ⟨_, rfl, ?_, Frame.setReg (List.mem_singleton_self x)⟩,
    decodeWord_encode (i := .assignRegister x y) rfl, ⟨_, rfl, ?_, Frame.setReg (List.mem_singleton_self x)⟩⟩
  · exact s.reg_setReg_same x nn
  · rw [State.reg_setReg_same, BitVec.toNat_add]
  · exact s.reg_setReg_same x (s.reg y)

/-- Settles O35. -/
theorem logicWritesNoFlag : Obligations.LogicWritesNoFlag := by
  intro x y s
  refine ⟨decodeWord_encode (i := .or x y) rfl, ⟨_, rfl, fun k => ?_, Frame.setReg (List.mem_singleton_self x)⟩,
    decodeWord_encode (i := .and x y) rfl, ⟨_, rfl, fun k => ?_, Frame.setReg (List.mem_singleton_self x)⟩,
    decodeWord_encode (i := .xor x y) rfl, ⟨_, rfl, fun k => ?_, Frame.setReg (List.mem_singleton_self x)⟩⟩
  · rw [State.reg_setReg_same, BitVec.getLsbD_or]
  · rw [State.reg_setReg_same, BitVec.getLsbD_and]
  · rw [State.reg_setReg_same, BitVec.getLsbD_xor]

/-- Settles O36. -/
theorem addRegistersCarries : Obligations.AddRegistersCarries := by
  intro x y s
  obtain ⟨hx, hVF⟩ := s.setFlagThenResult_spec (carryFlag (s.reg x) (s.reg y)) x (s.reg x + s.reg y)
  refine ⟨decodeWord_encode (i := .addRegisters x y) rfl, _, rfl, ?_, fun h => ?_, exec_frame (i := .addRegisters x y) rfl⟩
  · rw [hx, BitVec.toNat_add]
  · exact (hVF h).trans (flag_decide _)

/-- Settles O37: both orders of the operands. -/
theorem subtractionsFlagGreater : Obligations.SubtractionsFlagGreater := by
  intro x y s
  obtain ⟨hsub, hsubVF⟩ := s.setFlagThenResult_sub_spec x (s.reg x) (s.reg y)
  obtain ⟨hrev, hrevVF⟩ := s.setFlagThenResult_sub_spec x (s.reg y) (s.reg x)
  exact ⟨decodeWord_encode (i := .subtractRegisters x y) rfl,
    ⟨_, rfl, hsub, hsubVF, exec_frame (i := .subtractRegisters x y) rfl⟩,
    decodeWord_encode (i := .reverseSubtract x y) rfl,
    ⟨_, rfl, hrev, hrevVF, exec_frame (i := .reverseSubtract x y) rfl⟩⟩

/-- Settles O39: the one request is `afterRandom`, whose fields a register write keeps. -/
theorem andRandomMasksOneByte : Obligations.AndRandomMasksOneByte := by
  intro x nn s
  refine ⟨decodeWord_encode (i := .andRandom x nn) rfl, _, rfl, fun k => ?_, rfl, rfl, rfl, rfl,
    exec_frame (i := .andRandom x nn) rfl⟩
  rw [State.reg_setReg_same, BitVec.getLsbD_and]

end Sys2Proof.Machine

/-! ### Registers dumped and loaded again (44_index_memory.md R194, R195), and the writes of I (R190 to R192) -/

namespace Sys2Proof.Machine

section
variable {s t : State}

theorem State.readByte_congr (hcfg : s.cfg = t.cfg) (hmem : s.mem = t.mem) (a : Nat) : s.readByte a = t.readByte a := by
  rw [State.readByte, hcfg, hmem, State.readByte]

theorem State.indexInRange_congr {count : Nat} (hcfg : s.cfg = t.cfg) (hi : s.i = t.i) :
    s.indexInRange count ↔ t.indexInRange count := by
  rw [State.indexInRange_iff, State.indexInRange_iff, hcfg, hi]

end

/-- Settles O44: load-registers finds at I + c the byte that dump-registers stored there, for memory, I and configuration are those
it left. -/
theorem dumpThenLoadRestores : Obligations.DumpThenLoadRestores := by
  intro x s t u hrange ht hmem hcfg hi
  obtain ⟨-, hdump, -⟩ := dumpRegistersStoresThem x s
  obtain ⟨-, t', ht', hstored, hframe⟩ := hdump hrange
  obtain rfl : t' = t := Host.Outcome.next.inj (ht'.symm.trans ht)
  have hus : u.i = s.i := hi.trans (hframe.index rfl)
  obtain ⟨-, hload, -⟩ := loadRegistersLoadsThem x u
  obtain ⟨r, hr, hloaded, -, hframe'⟩ := hload ((State.indexInRange_congr (hcfg.trans hframe.cfg) hus).2 hrange)
  refine ⟨r, hr, fun c hc => ?_, hframe'⟩
  calc r.reg c
    _ = u.readByte ((u.i.toNat + c.val) % 4096) := hloaded c hc
    _ = t'.readByte ((s.i.toNat + c.val) % 4096) := by rw [State.readByte_congr hcfg hmem, hus]
    _ = s.reg c := hstored c hc

/-- R192: the last glyph's address is 0x09B, so nothing wraps. -/
theorem toNat_glyphAddr (v : Byte) : (glyphAddr v).toNat = 0x050 + 5 * (v.toNat % 16) := by
  have hlow : ((v &&& 0x0F).setWidth 16).toNat = v.toNat % 16 :=
    (BitVec.toNat_setWidth_of_le (by decide)).trans ((BitVec.toNat_and v 0x0F).trans (Nat.and_two_pow_sub_one_eq_mod v.toNat 4))
  rw [glyphAddr, BitVec.toNat_add, BitVec.toNat_mul, hlow]
  change (0x050 + 5 * (v.toNat % 16) % 2 ^ 16) % 2 ^ 16 = _
  omega

/-- Settles O40. -/
theorem indexRegisterWrites : Obligations.IndexRegisterWrites := by
  intro nnn x s
  refine ⟨decodeWord_encode (i := .setIndex nnn) rfl, ⟨_, rfl, toNat_addrOperand nnn, Frame.setIndex rfl⟩,
    decodeWord_encode (i := .addToIndex x) rfl, ⟨_, rfl, ?_, Frame.setIndex rfl⟩,
    decodeWord_encode (i := .setIndexToFontGlyph x) rfl, ⟨_, rfl, toNat_glyphAddr (s.reg x), Frame.setIndex rfl⟩⟩
  rw [State.setIndex_i, BitVec.toNat_add, BitVec.toNat_setWidth_of_le (by decide)]

end Sys2Proof.Machine

/-! ### The display cleared, and a sprite drawn twice (45_display.md R211 to R213) -/

namespace Sys2Proof.Machine

/-- Settles O45. -/
theorem clearDisplayUnsetsEveryCell : Obligations.ClearDisplayUnsetsEveryCell :=
  fun z _ => ⟨decodeWord_wordXNN_0E0 z, _, rfl, Framebuffer.get_clear, Frame.setDisplay rfl⟩

section
variable {s t : State}

/-- R212, D9: a draw leaves the place of the next one where it was, for VF is the only register it writes and is read as 0. -/
theorem Frame.spriteCoord_eq (h : Frame { regs := [VF], display := true } s t) (x : Reg) :
    t.spriteCoord x = s.spriteCoord x := by
  unfold State.spriteCoord
  split
  next => rfl
  next hx => rw [h.regs x (by simpa using hx)]

/-- A draw leaves the sprite as it was: its place, I and the rows' bytes. -/
theorem Frame.spriteCovers_eq (h : Frame { regs := [VF], display := true } s t) (x y : Reg) (n : Nibble) (col row : Nat) :
    t.spriteCovers x y n col row = s.spriteCovers x y n col row := by
  have hbyte (a : Nat) : t.readByte a = s.readByte a := h.cells a List.not_mem_nil
  simp only [State.spriteCovers, h.spriteCoord_eq, h.index rfl, hbyte]

end

/-- Settles O48: both draws toggle the same cells, so the second one undoes the first, and the covered cells it finds set are those
the first one found clear. -/
theorem drawingTwiceRestores : Obligations.DrawingTwiceRestores := by
  intro x y n s t hrange ht
  obtain ⟨-, hfirst⟩ := drawSpriteTogglesItsCells x y n s
  obtain ⟨t', ht', htoggled, -, -, hframe⟩ := hfirst hrange
  obtain rfl : t' = t := Host.Outcome.next.inj (ht'.symm.trans ht)
  have hcov := hframe.spriteCovers_eq x y n
  obtain ⟨-, hsecond⟩ := drawSpriteTogglesItsCells x y n t'
  obtain ⟨u, hu, hagain, hset, hclear, hframe'⟩ := hsecond <| by
    rw [hframe.spriteCoord_eq]
    exact (State.indexInRange_congr hframe.cfg (hframe.index rfl)).2 hrange
  have hflipped {col row : Nat} (hc : col < 64) (hr : row < 32) (h : s.spriteCovers x y n col row = true) :
      t'.fb.get col row = !s.fb.get col row := by
    rw [htoggled col row hc hr, h, Bool.xor_true]
  refine ⟨u, hu, Framebuffer.ext_get fun col hc row hr => ?_, ⟨fun hVF => ?_, ?_⟩, hframe'⟩
  · rw [hagain col row hc hr, htoggled col row hc hr, hcov, Bool.xor_assoc, Bool.xor_self, Bool.xor_false]
  · by_contra hnone
    have hzero : u.reg 15 = 0 := hclear fun col row hc hr h => by
      rw [hcov] at h
      have hs : s.fb.get col row = true := Bool.of_not_eq_false fun hs => hnone ⟨col, row, hc, hr, h, hs⟩
      rw [hflipped hc hr h, hs, Bool.not_true]
    exact absurd (hzero.symm.trans hVF) (by decide)
  · rintro ⟨col, row, hc, hr, h, hs⟩
    exact hset ⟨col, row, hc, hr, (hcov col row).trans h, by rw [hflipped hc hr h, hs, Bool.not_false]⟩

end Sys2Proof.Machine

/-! ### The wait for a key begun (46_timers_keys.md R234) -/

namespace Sys2Proof.Machine

/-- Settles O50: the wait is the one field written, and a state with a wait and no fault is Waiting (R101). -/
theorem getKeyStartsTheWait : Obligations.GetKeyStartsTheWait := by
  intro x s
  refine ⟨decodeWord_encode (i := .getKey x) rfl, s.setWait (some x), rfl, State.setWait_wait s (some x), fun hfault => ?_,
    Frame.setWait rfl⟩
  exact (State.runState_waiting_iff _).2 ⟨hfault, rfl⟩

end Sys2Proof.Machine

/-! ### Exceptions as next states (60_exceptions.md R250, R256, R258) -/

namespace Sys2Proof.Machine

theorem State.runSlots_answers (n : Nat) (s : State) : ∃ t, s.runSlots n = .next t := by
  induction n generalizing s with
  | zero => exact ⟨s, rfl⟩
  | succ n ih =>
    cases hf : s.fault with
    | some f => exact ⟨s, State.runSlots_of_isSome_fault _ (by simp [hf])⟩
    | none =>
      obtain ⟨u, hu⟩ := s.slotBody_answers
      obtain ⟨t, ht⟩ := ih u
      exact ⟨t, by simp [State.runSlots, hf, hu, ht]⟩

theorem step_and_tick_answer (s : State) : (∃ t, step s = .next t) ∧ ∃ t, s.tick = .next t := by
  cases hf : s.fault with
  | some f =>
    obtain ⟨-, -, hstep, htick⟩ := faultedBlockIsInert s f hf
    exact ⟨⟨s, hstep⟩, s, htick⟩
  | none =>
    have htick : s.tick = s.decrementTimers.runSlots s.cfg.cyclesPerTick := by simp [State.tick, hf]
    rw [step_of_no_fault hf, htick]
    exact ⟨s.beginSlot.slotBody_answers, State.runSlots_answers _ _⟩

/-- Settles O13: a tick by induction on its slots, each of which answers because every instruction does. -/
theorem everythingAnswersANextState : Obligations.EverythingAnswersANextState :=
  ⟨exec_answers, forall_and.1 step_and_tick_answer⟩

/-- Settles O18: an instruction that keeps the fault record cannot have set one, and every other end is `raiseInExecute`. -/
theorem executeFaultsArePrecise : Obligations.ExecuteFaultsArePrecise := by
  intro i s t hs h ht
  obtain ⟨hkept, -⟩ | ⟨c, hc, hraised⟩ := exec_keeps_fault_or_raises h
  · exact absurd (hkept.trans hs) ht
  · exact ⟨c, hraised, hc⟩

end Sys2Proof.Machine
